-- ==== Sys2Proof/Word.lean ====
section
/-! DEFINITION. The word types of QRRS: the byte (a codeword, a field element, a buffer or ROM entry; 00_scope.md R4 `CW`)
and the 16-bit command and response word (00_scope.md R4 `CMDW`, `RSPW`). -/

namespace Sys2Proof

/-- A codeword, a field element, a table entry: 8 bits (00_scope.md R4, `CW`). -/
abbrev Byte := BitVec 8

/-- A command word or a response word: 16 bits (00_scope.md R4, `CMDW` and `RSPW`). -/
abbrev Word16 := BitVec 16

end Sys2Proof
end

