-- ==== Sys2Proof/Syntax.lean ====
section
/-! DEFINITION. The commands of QRRS-1, one constructor per row of spec/opcode_table.json (30_encoding.md R54). -/

namespace Sys2Proof

/-- The 18 commands. The operand of a format-I command is `imm8`, an unsigned byte (30_encoding.md R53). -/
inductive Instr where
  | nop                  -- R66
  | clr                  -- R67
  | rdreg (n : Byte)     -- R68: a register number
  | setr (r : Byte)      -- R69: a count
  | push (b : Byte)      -- R76: a data codeword
  | ldw (j : Byte)       -- R77: an index into W
  | stw (j : Byte)       -- R78: an index into W
  | rdrs (j : Byte)      -- R79: the number of an RS codeword
  | gfldi (b : Byte)     -- R89: a field element
  | gfaddi (b : Byte)    -- R90: a field element
  | gfmuli (b : Byte)    -- R91: a field element
  | gflog                -- R92
  | gfexp                -- R93
  | genrd (k : Byte)     -- R102: a generator-term index
  | shl                  -- R103
  | macg                 -- R104
  | step                 -- R105
  | enc                  -- R106
  deriving DecidableEq, Repr

/-- The mnemonic of a command (30_encoding.md R54). -/
def Instr.mnemonic : Instr → String
  | .nop => "NOP"
  | .clr => "CLR"
  | .rdreg _ => "RDREG"
  | .setr _ => "SETR"
  | .push _ => "PUSH"
  | .ldw _ => "LDW"
  | .stw _ => "STW"
  | .rdrs _ => "RDRS"
  | .gfldi _ => "GFLDI"
  | .gfaddi _ => "GFADDI"
  | .gfmuli _ => "GFMULI"
  | .gflog => "GFLOG"
  | .gfexp => "GFEXP"
  | .genrd _ => "GENRD"
  | .shl => "SHL"
  | .macg => "MACG"
  | .step => "STEP"
  | .enc => "ENC"

/-- The operand of a format-I command; `none` for format Z (30_encoding.md R51, R52). -/
def Instr.operand : Instr → Option Byte
  | .rdreg n => some n
  | .setr r => some r
  | .push b => some b
  | .ldw j => some j
  | .stw j => some j
  | .rdrs j => some j
  | .gfldi b => some b
  | .gfaddi b => some b
  | .gfmuli b => some b
  | .genrd k => some k
  | .nop => none
  | .clr => none
  | .gflog => none
  | .gfexp => none
  | .shl => none
  | .macg => none
  | .step => none
  | .enc => none

/-! The pseudo-instructions of 30_encoding.md R60, each an exact spelling of one command. -/

/-- `RDACC`, the word `0x0200` (30_encoding.md R60). -/
def Instr.rdacc : Instr := .rdreg 0
/-- `RDR`, the word `0x0201` (30_encoding.md R60). -/
def Instr.rdr : Instr := .rdreg 1
/-- `RDD`, the word `0x0202` (30_encoding.md R60). -/
def Instr.rdd : Instr := .rdreg 2
/-- `STAT`, the word `0x0203` (30_encoding.md R60). -/
def Instr.stat : Instr := .rdreg 3

end Sys2Proof
end

