-- ==== Sys2Proof/WellFormed.lean ====
section
/-! DEFINITION. Which terms of `Instr` stand for a command word. The one constraint is RDREG's: a register number is 0..3,
the words `0x0204`..`0x02FF` are illegal (30_encoding.md R55; 40_system.md R68). Whether any other operand is acceptable is
decided by the command's own rule, as a fault, not by the decoder (30_encoding.md R51). -/

namespace Sys2Proof

/-- `i` is the meaning of some command word. -/
def Instr.wellFormed : Instr → Bool
  | .rdreg n => n.toNat ≤ 3
  | .nop => true
  | .clr => true
  | .setr _ => true
  | .push _ => true
  | .ldw _ => true
  | .stw _ => true
  | .rdrs _ => true
  | .gfldi _ => true
  | .gfaddi _ => true
  | .gfmuli _ => true
  | .gflog => true
  | .gfexp => true
  | .genrd _ => true
  | .shl => true
  | .macg => true
  | .step => true
  | .enc => true

end Sys2Proof
end

