-- ==== Sys2Proof/Decode.lean ====
section
/-! DEFINITION. The decoder, total on all 65536 command words, and the encoder (30_encoding.md R50 to R55).
A command word is an abstract 16-bit value with no byte order (20_memory.md R32). -/

namespace Sys2Proof

/-- Why a word is no command: the three ways of being illegal that 30_encoding.md R55 lists. -/
inductive DecodeReject where
  /-- `op` is not one of the 18 listed values. -/
  | unlistedOpcode
  /-- `op` is a format-Z opcode and the low byte is not zero. -/
  | nonzeroLowByte
  /-- `RDREG` of a register number 4..255. -/
  | reservedRegister
  deriving DecidableEq, Repr

/-- The opcode field, `cmd[15:8]` (30_encoding.md R50). -/
def opField (cmd : Word16) : Byte := cmd.extractLsb' 8 8

/-- The immediate field `imm8`, `cmd[7:0]` (30_encoding.md R50, R53). -/
def immField (cmd : Word16) : Byte := cmd.extractLsb' 0 8

/-- Format Z: the low byte must be zero (30_encoding.md R52). -/
def decodeZ (imm : Byte) (i : Instr) : Except DecodeReject Instr :=
  if imm = 0 then .ok i else .error .nonzeroLowByte

/-- The decoder: the opcode map of 30_encoding.md R54, the illegal words of R55. -/
def decode (cmd : Word16) : Except DecodeReject Instr :=
  let imm := immField cmd
  match (opField cmd).toNat with
  | 0x00 => decodeZ imm .nop
  | 0x01 => decodeZ imm .clr
  | 0x02 => if imm.toNat ≤ 3 then .ok (.rdreg imm) else .error .reservedRegister
  | 0x03 => .ok (.setr imm)
  | 0x10 => .ok (.push imm)
  | 0x11 => .ok (.ldw imm)
  | 0x12 => .ok (.stw imm)
  | 0x13 => .ok (.rdrs imm)
  | 0x20 => .ok (.gfldi imm)
  | 0x21 => .ok (.gfaddi imm)
  | 0x22 => .ok (.gfmuli imm)
  | 0x23 => decodeZ imm .gflog
  | 0x24 => decodeZ imm .gfexp
  | 0x30 => .ok (.genrd imm)
  | 0x31 => decodeZ imm .shl
  | 0x32 => decodeZ imm .macg
  | 0x33 => decodeZ imm .step
  | 0x34 => decodeZ imm .enc
  | _ => .error .unlistedOpcode

/-- The opcode byte of a command (30_encoding.md R54, column `op`). -/
def Instr.opcode : Instr → Byte
  | .nop => 0x00
  | .clr => 0x01
  | .rdreg _ => 0x02
  | .setr _ => 0x03
  | .push _ => 0x10
  | .ldw _ => 0x11
  | .stw _ => 0x12
  | .rdrs _ => 0x13
  | .gfldi _ => 0x20
  | .gfaddi _ => 0x21
  | .gfmuli _ => 0x22
  | .gflog => 0x23
  | .gfexp => 0x24
  | .genrd _ => 0x30
  | .shl => 0x31
  | .macg => 0x32
  | .step => 0x33
  | .enc => 0x34

/-- The low byte of a command's word: its operand in format I, `0x00` in format Z (30_encoding.md R51, R52). -/
def Instr.lowByte (i : Instr) : Byte := i.operand.getD 0

/-- The encoder: the word of a command is `{op, low byte}` (30_encoding.md R50). -/
def encode (i : Instr) : Word16 := i.opcode ++ i.lowByte

/-- What the decoder reads from an instruction of the opcode table whose bits, numbered as the table numbers them, are `w`.
Every row has 16 bits and no operand words, so a word above 16 bits is none of its instructions. -/
def decodeTableWord (nbits w : Nat) : Option Instr :=
  if nbits ≤ 16 ∧ w < 2 ^ 16 then
    match decode (BitVec.ofNat 16 w) with
    | .ok i => some i
    | .error _ => none
  else none

end Sys2Proof
end

