-- ==== Sys2Proof/Config.lean ====
section
/-! DEFINITION. What is fixed for a block: the configuration, whose two entries are the parameters of 00_scope.md R4, the
constants of that rule, and the one value the spec leaves open. The value the spec states for each parameter is the default,
`Config.stated` (Machine/Rom.lean, beside the table it holds). -/

namespace Sys2Proof

/-- The parameters of 00_scope.md R4: "A model takes the ones marked "parameter" as arguments of its configuration with the
stated value as the default". A definition that depends on one takes the configuration as an argument. -/
structure Config where
  /-- `NMAX`, the number of entries of the work buffer and the largest admitted `d + r` (93_implementation_defined.md U16). -/
  nmax : Nat
  /-- The contents of `GEN`, one row a degree, the one for degree `r` at position `r - RMIN` (20_memory.md R45;
  93_implementation_defined.md U17). -/
  gen : List (List Byte)
  deriving DecidableEq, Repr

/-- `RMIN`, the smallest generator degree held (00_scope.md R4). -/
abbrev Config.rmin : Nat := 7

/-- `RMAX`, the largest generator degree held (00_scope.md R4). -/
abbrev Config.rmax : Nat := 68

theorem Config.rmin_eq : Config.rmin = 7 := rfl
theorem Config.rmax_eq : Config.rmax = 68 := rfl

/-- `LOG[0]`: "not defined", and no rule reads it (20_memory.md R43; 93_implementation_defined.md U1, "any value").
A free value: it has no body, so nothing can be proved of it. DESIGN CHOICE, safe, log entry 5. -/
opaque Config.logZero : Byte

end Sys2Proof
end

