-- ==== Sys2Proof/Machine/Field.lean ====
section
/-! DEFINITION. The arithmetic of GF(256) (42_gf.md R85, R86) and the `xtime` of 20_memory.md R44. -/

namespace Sys2Proof.Machine

/-- Field addition: bitwise exclusive-or (42_gf.md R85). -/
def gfadd (a b : Byte) : Byte := a ^^^ b

/-- Field multiplication by logs; the zero test comes first, so `LOG[0]` is never read (42_gf.md R86). The exponent sum is
at most 508 and is taken without wrap-around before the reduction mod 255. -/
def gfmul (a b : Byte) : Byte :=
  if a = 0 ∨ b = 0 then 0 else antilog ((log a).toNat + (log b).toNat)

/-- One term of a scaled generator: the antilog of the term's log plus the log `e` of the factor (43_poly.md R101, R104). -/
def scaledTerm (term e : Byte) : Byte := antilog (term.toNat + e.toNat)

/-- Multiplication by x, reduced by the primitive polynomial (20_memory.md R44). -/
def xtime (v : Byte) : Byte :=
  if v.getLsbD 7 then (v <<< 1) ^^^ 0x1D else v <<< 1

end Sys2Proof.Machine
end

