-- ==== Sys2Proof/Machine/State.lean ====
section
/-! DEFINITION. The state of the block (10_state.md R10 to R25), the host side of the transaction as plain data, the reasons
a step can stop, and the state after reset. -/

namespace Sys2Proof.Machine

/-- The work buffer as plain data: (index, byte) pairs (log entry 7). -/
abbrev Memory := List Host.Cell

/-- What the host can do to the block, between two commands (70_reset_and_hazards.md R149): give a command word, or assert
hardware reset, which is an action and not a command word (R140). -/
inductive HostInput where
  | command (w : Word16)
  | reset
  deriving DecidableEq, Repr

/-- The architectural state is exactly ACC, RLEN, DLEN, DONE, ERR and W (10_state.md R10). `pending` and `rsp` are the
model's own: the two words of the transaction exist only during the command they belong to, and a step takes only a State
(log entries 1, 2, 3). -/
structure State where
  /-- `ACC`, the accumulator (10_state.md R11). -/
  acc : BitVec 8
  /-- `RLEN`, the number `r` of RS codewords required, 0 for "not set" (10_state.md R13). -/
  rlen : BitVec 7
  /-- `DLEN`, the count of data codewords pushed (10_state.md R14). -/
  dlen : BitVec 8
  /-- `DONE`, an `ENC` has completed since the last `CLR` or reset (10_state.md R15). -/
  done : Bool
  /-- `ERR`, 0 or the code of the first fault (10_state.md R16). -/
  err : BitVec 3
  /-- `W`, the work buffer, as (index, byte) pairs: indices rising, no zero byte listed (10_state.md R20; log entry 7). -/
  w : Memory
  /-- MODEL: what the host gives next, the first first; one entry is taken a step (log entry 1). -/
  pending : List HostInput
  /-- MODEL: the response word of the step just taken, if it was a command (30_encoding.md R57; log entry 3). -/
  rsp : Option Word16
  deriving DecidableEq, Repr

/-- Why the MODEL stops. The faults of the spec are not here: they are next states (60_exceptions.md R120, R123). -/
inductive Fault where
  /-- A read of a `GEN` row that the ROM does not hold. Raised by GENRD, MACG, STEP and ENC when `RLEN` is neither 0 nor
  7..68, which no command can bring about (10_state.md R13, R24). Safe: the spec gives such a read no meaning (log entry 4). -/
  | genAbsent
  deriving DecidableEq, Repr

/-- Why the model refuses an instruction. -/
inductive Refusal where
  /-- An instruction of the table that has no meaning yet, raised by its arm of `exec` alone. Safe. No arm raises it now. -/
  | notModelled (mnemonic : String)
  deriving DecidableEq, Repr

/-- The three outcomes of a step, for this machine. -/
abbrev Result := Host.Outcome State Fault Refusal

/-- The state after hardware reset (10_state.md R23): every register 0, every `W[j]` 0. The host has given nothing yet
(log entry 1) and no response word stands (70_reset_and_hazards.md R140). -/
def State.reset : State :=
  { acc := 0, rlen := 0, dlen := 0, done := false, err := 0, w := [], pending := [], rsp := none }

end Sys2Proof.Machine
end

