-- ==== Sys2Proof/Machine/Flags.lean ====
section
/-! DEFINITION. Flags: the STATUS view, the response word, the fault codes (10_state.md R17; 30_encoding.md R57;
60_exceptions.md R121). The block has no arithmetic condition flags (42_gf.md R85, R87). -/

namespace Sys2Proof.Machine

/-- The fault codes of 60_exceptions.md R121. -/
inductive FaultCode where
  /-- `E_ILL`: the command word is illegal. -/
  | ill
  /-- `E_PARAM`: an operand or parameter is out of range. -/
  | param
  /-- `E_EMPTY`: `ENC` with `DLEN = 0`. -/
  | empty
  /-- `E_OVF`: `PUSH` with the work buffer full. -/
  | ovf
  /-- `E_SEQ`: command out of sequence. -/
  | seq
  /-- `E_DOM`: `GFLOG` of zero. -/
  | dom
  deriving DecidableEq, Repr

/-- The value a fault writes to `ERR` (60_exceptions.md R121). -/
def FaultCode.code : FaultCode → BitVec 3
  | .ill => 1
  | .param => 2
  | .empty => 3
  | .ovf => 4
  | .seq => 5
  | .dom => 6

/-- `FAULT`: 1 if `ERR != 0` (10_state.md R17). -/
def State.faultFlag (s : State) : Bool := decide (s.err ≠ 0)

/-- `RSET`: 1 if `RLEN != 0` (10_state.md R17). -/
def State.rsetFlag (s : State) : Bool := decide (s.rlen ≠ 0)

/-- `STATUS = {FAULT, DONE, RSET, 0b00, ERR}` (10_state.md R17). -/
def State.status (s : State) : Byte :=
  BitVec.ofBool s.faultFlag ++ BitVec.ofBool s.done ++ BitVec.ofBool s.rsetFlag ++ (0 : BitVec 2) ++ s.err

/-- The response word `{STATUS, data}`, STATUS being that of the state it is computed from (30_encoding.md R57). -/
def State.responseWord (s : State) (data : Byte) : Word16 := s.status ++ data

end Sys2Proof.Machine
end

