-- ==== Sys2Proof/Machine/Ops.lean ====
section
/-! DEFINITION. The operations the meanings share: the work buffer and its two polynomial primitives, the end of a command
(answer, fault, rejection), the return from the faulted state, and the order of the checks. -/

namespace Sys2Proof.Machine

/-- What an index that is not listed reads as: the reset value of every entry of `W` (10_state.md R20, R23). -/
def Memory.unlisted : Byte := 0

/-- `W[j]` (00_scope.md R7, `MemRead(j, 1)`). -/
def Memory.read : Memory → Nat → Byte
  | [], _ => Memory.unlisted
  | (a, v) :: rest, j => if a = j then v else Memory.read rest j

/-- Puts `v` at the head of the list under index `j`, or nothing where `v` is what an unlisted index reads as. -/
def Memory.cons (j : Nat) (v : Byte) (m : Memory) : Memory :=
  if v = Memory.unlisted then m else (j, v) :: m

/-- `W[j] <- v` (00_scope.md R7, `MemWrite(j, 1, v)`), keeping the canonical form. -/
def Memory.write : Memory → Nat → Byte → Memory
  | [], j, v => Memory.cons j v []
  | (a, x) :: rest, j, v =>
    if j < a then Memory.cons j v ((a, x) :: rest)
    else if j = a then Memory.cons j v rest
    else (a, x) :: Memory.write rest j v

/-- The canonical form: indices strictly rising, each below `NMAX`, no listed byte equal to the unlisted one. -/
def Memory.wf (m : Memory) (cfg : Config := Config.stated) : Bool :=
  match m with
  | [] => true
  | (a, v) :: rest =>
    decide (a < cfg.nmax) && decide (v ≠ Memory.unlisted) && rest.all (fun c => decide (a < c.1)) && Memory.wf rest cfg

/-- `ShiftW()`: every entry moves down one index, the old `W[0]` is discarded, 0 enters at the top (43_poly.md R100). -/
def Memory.shift : Memory → Memory
  | [] => []
  | (0, _) :: rest => Memory.shift rest
  | (a + 1, v) :: rest => (a, v) :: Memory.shift rest

/-- The update loop of `DivStep` and `MACG`: `W[k+1] <- W[k+1] xor EXP[(GEN[r][k] + e) mod 255]` for the terms from number
`k` on, in ascending order of `k` (43_poly.md R101, R104). -/
def Memory.addTerms (e : Byte) : Nat → List Byte → Memory → Memory
  | _, [], m => m
  | k, term :: terms, m =>
    Memory.addTerms e (k + 1) terms (m.write (k + 1) (gfadd (m.read (k + 1)) (scaledTerm term e)))

/-- `DivStep(r)`, one iteration of the long division, with `terms` the row `GEN[r]` (43_poly.md R101). -/
def Memory.divStep (terms : List Byte) (m : Memory) : Memory :=
  if m.read 0 = 0 then m.shift else (m.addTerms (log (m.read 0)) 0 terms).shift

/-- `n` iterations of `DivStep` (43_poly.md R106, the loop of `ENC`). -/
def Memory.divSteps (terms : List Byte) : Nat → Memory → Memory
  | 0, m => m
  | n + 1, m => Memory.divSteps terms n (m.divStep terms)

/-- The generator scaled by the nonzero factor `a`, leading term included, added into `W[0..r]` (43_poly.md R104). -/
def Memory.addScaled (terms : List Byte) (a : Byte) (m : Memory) : Memory :=
  (m.write 0 (gfadd (m.read 0) a)).addTerms (log a) 0 terms

/-- A command completes with the state `s` and the data byte `data`: its one response word is given, STATUS being that of
the state after the command (30_encoding.md R57, R58; 40_system.md R65, step 6). -/
def State.answer (s : State) (data : Byte) : Result :=
  .next { s with rsp := some (s.responseWord data) }

/-- `ACC <- t; respond(t)`: the common end of the field commands and of `GENRD` (42_gf.md R89 to R93; 43_poly.md R102). -/
def State.answerAcc (s : State) (t : Byte) : Result := State.answer { s with acc := t } t

/-- `raise Fault(code)`: fault entry (60_exceptions.md R123). `ERR` takes the code, nothing else changes, the data byte is
`0x00`. Every meaning calls it with the state it was given, so there is nothing to discard. -/
def State.raise (s : State) (c : FaultCode) : Result :=
  State.answer { s with err := c.code } 0

/-- A command word rejected in the faulted state: no change, data byte `0x00` (60_exceptions.md R124). -/
def State.reject (s : State) : Result := s.answer 0

/-- The return from the faulted state, and the whole of `CLR`: every field of the block as reset leaves it
(60_exceptions.md R127; 40_system.md R67; 70_reset_and_hazards.md R141). What the host is about to give stands. -/
def State.cleared (s : State) : State := { State.reset with pending := s.pending }

/-- Step 2 of 40_system.md R65: in the faulted state the command is rejected, otherwise it executes. -/
def State.unlessFaulted (s : State) (body : Result) : Result :=
  if s.err ≠ 0 then s.reject else body

/-- One check of 60_exceptions.md R122: if `bad` holds the command faults with `c`, otherwise it goes on. -/
def State.check (s : State) (bad : Bool) (c : FaultCode) (body : Result) : Result :=
  if bad then s.raise c else body

/-- An illegal command word: `E_ILL`, or a rejection in the faulted state (30_encoding.md R55; 60_exceptions.md R125). -/
def State.illegal (s : State) : Result := s.unlessFaulted (s.raise .ill)

/-- The command goes on with the row of `GEN` that `RLEN` selects; the model stops where the ROM has none (log entry 4). -/
def State.withGenerator (s : State) (cfg : Config) (body : List Byte → Result) : Result :=
  match genRow s.rlen.toNat cfg with
  | some terms => body terms
  | none => .fault .genAbsent

end Sys2Proof.Machine
end

