-- ==== Sys2Proof/Machine/Operands.lean ====
section
/-! DEFINITION. The operand forms of `imm8` (30_encoding.md R53): data byte (the byte itself), work-buffer index,
generator-term index, result index, register number, count; and the tests of the implicit operands. -/

namespace Sys2Proof.Machine

/-- A work-buffer index above `NMAX - 1`, with the stated `NMAX` 255 alone (20_memory.md R33; 41_buffer.md R77, R78). -/
def indexOutOfRange (j : Byte) (cfg : Config) : Bool := decide (cfg.nmax - 1 < j.toNat)

/-- A count outside `RMIN..RMAX` (40_system.md R69). -/
def countOutOfRange (r : Byte) : Bool := decide (r.toNat < Config.rmin) || decide (Config.rmax < r.toNat)

/-- An index not below `RLEN`: of an RS codeword (41_buffer.md R79) or of a generator term (43_poly.md R102). -/
def State.notBelowRlen (s : State) (k : Byte) : Bool := decide (s.rlen.toNat ≤ k.toNat)

/-- `RLEN = 0`: `r` is not set (10_state.md R13). -/
def State.rlenUnset (s : State) : Bool := decide (s.rlen = 0)

/-- `DLEN = NMAX`: the work buffer is full (41_buffer.md R76). -/
def State.bufferFull (s : State) (cfg : Config) : Bool := decide (s.dlen.toNat = cfg.nmax)

/-- `DLEN + RLEN > NMAX`, the sum taken without wrap-around (42_gf.md R87; 43_poly.md R106). -/
def State.blockTooLong (s : State) (cfg : Config) : Bool := decide (cfg.nmax < s.dlen.toNat + s.rlen.toNat)

/-- The value `RDREG n` reads (10_state.md R18; 40_system.md R68); `none` for the reserved numbers 4..255. -/
def State.readReg (s : State) (n : Byte) : Option Byte :=
  match n.toNat with
  | 0 => some s.acc
  | 1 => some (s.rlen.setWidth 8)
  | 2 => some s.dlen
  | 3 => some s.status
  | _ => none

end Sys2Proof.Machine
end

