-- ==== Sys2Proof/Machine/Buffer.lean ====
section
/-! DEFINITION. The work-buffer commands PUSH, LDW, STW, RDRS (41_buffer.md R76 to R79). -/

namespace Sys2Proof.Machine

/-- `PUSH b` (41_buffer.md R76). -/
def execPush (b : Byte) (s : State) (cfg : Config := Config.stated) : Result :=
  s.unlessFaulted <|
  s.check s.done .seq <|
  s.check (s.bufferFull cfg) .ovf <|
  State.answer { s with w := s.w.write s.dlen.toNat b, dlen := s.dlen + 1 } 0

/-- `LDW j`, allowed whatever `DONE` is (41_buffer.md R77). -/
def execLdw (j : Byte) (s : State) (cfg : Config := Config.stated) : Result :=
  s.unlessFaulted <|
  s.check (indexOutOfRange j cfg) .param <|
  State.answer { s with acc := s.w.read j.toNat } (s.w.read j.toNat)

/-- `STW j` (41_buffer.md R78). -/
def execStw (j : Byte) (s : State) (cfg : Config := Config.stated) : Result :=
  s.unlessFaulted <|
  s.check s.done .seq <|
  s.check (indexOutOfRange j cfg) .param <|
  State.answer { s with w := s.w.write j.toNat s.acc } 0

/-- `RDRS j` (41_buffer.md R79). -/
def execRdrs (j : Byte) (s : State) : Result :=
  s.unlessFaulted <|
  s.check (!s.done) .seq <|
  s.check (s.notBelowRlen j) .param <|
  s.answer (s.w.read j.toNat)

end Sys2Proof.Machine
end

