-- ==== Sys2Proof/Machine/Gf.lean ====
section
/-! DEFINITION. The field commands GFLDI, GFADDI, GFMULI, GFLOG, GFEXP (42_gf.md R89 to R93). They run whatever `DONE` is
and answer the new `ACC`. -/

namespace Sys2Proof.Machine

/-- `GFLDI b` (42_gf.md R89). -/
def execGfldi (b : Byte) (s : State) : Result := s.unlessFaulted <| s.answerAcc b

/-- `GFADDI b` (42_gf.md R90). -/
def execGfaddi (b : Byte) (s : State) : Result := s.unlessFaulted <| s.answerAcc (gfadd s.acc b)

/-- `GFMULI b` (42_gf.md R91). -/
def execGfmuli (b : Byte) (s : State) : Result := s.unlessFaulted <| s.answerAcc (gfmul s.acc b)

/-- `GFLOG`: zero has no logarithm (42_gf.md R92). -/
def execGflog (s : State) : Result :=
  s.unlessFaulted <|
  s.check (decide (s.acc = 0)) .dom <|
  s.answerAcc (log s.acc)

/-- `GFEXP`: the exponent is reduced mod 255, so 255 reads entry 0 (42_gf.md R93). -/
def execGfexp (s : State) : Result := s.unlessFaulted <| s.answerAcc (antilog s.acc.toNat)

end Sys2Proof.Machine
end

