-- ==== Sys2Proof/Machine/Poly.lean ====
section
/-! DEFINITION. The polynomial commands GENRD, SHL, MACG, STEP, ENC (43_poly.md R102 to R106). -/

namespace Sys2Proof.Machine

/-- `GENRD k` (43_poly.md R102). -/
def execGenrd (k : Byte) (s : State) (cfg : Config := Config.stated) : Result :=
  s.unlessFaulted <|
  s.check s.rlenUnset .param <|
  s.check (s.notBelowRlen k) .param <|
  match genTerm s.rlen.toNat k.toNat cfg with
  | some t => s.answerAcc t
  | none => .fault .genAbsent

/-- `SHL` (43_poly.md R103). -/
def execShl (s : State) : Result :=
  s.unlessFaulted <|
  s.check s.done .seq <|
  State.answer { s with w := s.w.shift } 0

/-- `MACG`: with `ACC = 0` nothing changes and no table is read (43_poly.md R104). -/
def execMacg (s : State) (cfg : Config := Config.stated) : Result :=
  s.unlessFaulted <|
  s.check s.done .seq <|
  s.check s.rlenUnset .param <|
  if s.acc = 0 then s.answer 0
  else s.withGenerator cfg fun terms => State.answer { s with w := s.w.addScaled terms s.acc } 0

/-- `STEP` (43_poly.md R105). -/
def execStep (s : State) (cfg : Config := Config.stated) : Result :=
  s.unlessFaulted <|
  s.check s.done .seq <|
  s.check s.rlenUnset .param <|
  s.withGenerator cfg fun terms => State.answer { s with w := s.w.divStep terms } 0

/-- `ENC`: all four checks come before the first iteration (43_poly.md R106). -/
def execEnc (s : State) (cfg : Config := Config.stated) : Result :=
  s.unlessFaulted <|
  s.check s.done .seq <|
  s.check (decide (s.dlen = 0)) .empty <|
  s.check s.rlenUnset .param <|
  s.check (s.blockTooLong cfg) .param <|
  s.withGenerator cfg fun terms =>
    State.answer { s with w := s.w.divSteps terms s.dlen.toNat, done := true } 0

end Sys2Proof.Machine
end

