-- ==== Sys2Proof/Machine/System.lean ====
section
/-! DEFINITION. The system commands NOP, CLR, RDREG, SETR (40_system.md R66 to R69). -/

namespace Sys2Proof.Machine

/-- `NOP` executes in every state and changes nothing (40_system.md R66). -/
def execNop (s : State) : Result := s.answer 0

/-- `CLR` executes in every state and leaves the reset state (40_system.md R67). -/
def execClr (s : State) : Result := s.cleared.answer 0

/-- `RDREG n` executes in every state for `n <= 3`; a reserved number is an illegal command (40_system.md R68). -/
def execRdreg (n : Byte) (s : State) : Result :=
  match s.readReg n with
  | some v => s.answer v
  | none => s.illegal

/-- `SETR r` (40_system.md R69). -/
def execSetr (r : Byte) (s : State) : Result :=
  s.unlessFaulted <|
  s.check s.done .seq <|
  s.check (countOutOfRange r) .param <|
  State.answer { s with rlen := r.setWidth 7 } 0

end Sys2Proof.Machine
end

