-- ==== Sys2Proof/Machine/Configured.lean ====
section
/-! DEFINITION. The commands of a block built with any configuration (00_scope.md R4): the meanings that depend on a parameter
take it, the others are the same in every block. Dispatch.lean's `exec` is this at the stated configuration. -/

namespace Sys2Proof.Machine

/-- Each command's meaning in the block built with the configuration `cfg`. -/
def execWith (cfg : Config) (i : Instr) (s : State) : Result :=
  match i with
  | .nop => execNop s
  | .clr => execClr s
  | .rdreg n => execRdreg n s
  | .setr r => execSetr r s
  | .push b => execPush b s cfg
  | .ldw j => execLdw j s cfg
  | .stw j => execStw j s cfg
  | .rdrs j => execRdrs j s
  | .gfldi b => execGfldi b s
  | .gfaddi b => execGfaddi b s
  | .gfmuli b => execGfmuli b s
  | .gflog => execGflog s
  | .gfexp => execGfexp s
  | .genrd k => execGenrd k s cfg
  | .shl => execShl s
  | .macg => execMacg s cfg
  | .step => execStep s cfg
  | .enc => execEnc s cfg

end Sys2Proof.Machine
end

