-- ==== Sys2Proof/Machine/Dispatch.lean ====
section
/-! DEFINITION. One arm per command: the meaning of each (40_system.md R65, steps 2 to 6). -/

namespace Sys2Proof.Machine

def exec (i : Instr) (s : State) : Host.Outcome State Fault Refusal :=
  match i with
  -- system
  | .nop => Sys2Proof.Machine.execNop s
  | .clr => Sys2Proof.Machine.execClr s
  | .rdreg n => Sys2Proof.Machine.execRdreg n s
  | .setr r => Sys2Proof.Machine.execSetr r s
  -- buffer
  | .push b => Sys2Proof.Machine.execPush b s
  | .ldw j => Sys2Proof.Machine.execLdw j s
  | .stw j => Sys2Proof.Machine.execStw j s
  | .rdrs j => Sys2Proof.Machine.execRdrs j s
  -- field
  | .gfldi b => Sys2Proof.Machine.execGfldi b s
  | .gfaddi b => Sys2Proof.Machine.execGfaddi b s
  | .gfmuli b => Sys2Proof.Machine.execGfmuli b s
  | .gflog => Sys2Proof.Machine.execGflog s
  | .gfexp => Sys2Proof.Machine.execGfexp s
  -- polynomial
  | .genrd k => Sys2Proof.Machine.execGenrd k s
  | .shl => Sys2Proof.Machine.execShl s
  | .macg => Sys2Proof.Machine.execMacg s
  | .step => Sys2Proof.Machine.execStep s
  | .enc => Sys2Proof.Machine.execEnc s

end Sys2Proof.Machine
end

