-- ==== Sys2Proof/Machine/Input.lean ====
section
/-! DEFINITION. What a step does when the host gives no command word: it waits, or the block is reset
(70_reset_and_hazards.md R140, R149); and the state in which a command the host gave is executed. -/

namespace Sys2Proof.Machine

/-- The host gave nothing: the block waits for the next command, no state changes and no response is given
(60_exceptions.md R123, "the block waits for the next command"; log entries 1, 3). -/
def State.waits (s : State) : Result := .next { s with rsp := none }

/-- The host asserted hardware reset: the state of 10_state.md R23, and no response word (70_reset_and_hazards.md R140).
What the host gives after the reset, `rest`, stands. -/
def State.hardReset (rest : List HostInput) : Result := .next { State.reset with pending := rest }

/-- The state in which the command word just taken executes: the rest of what the host gives stands. -/
def State.taken (s : State) (rest : List HostInput) : State := { s with pending := rest }

end Sys2Proof.Machine
end

