-- ==== Sys2Proof/Machine/Step.lean ====
section
/-! DEFINITION. The step of the block: one transaction with the host (40_system.md R65; 70_reset_and_hazards.md R149). -/

namespace Sys2Proof.Machine

/-- One command word: decoded and executed by `run`, or illegal (40_system.md R65, steps 1 to 6). -/
def runWord (cmd : Word16) (s : State) (run : Instr → State → Result := exec) : Result :=
  match decode cmd with
  | .ok i => run i s
  | .error _ => s.illegal

/-- One step of a block whose commands execute by `run`: it takes what the host gives next and answers it (log entries 1, 2). -/
def stepBy (run : Instr → State → Result) (s : State) : Result :=
  match s.pending with
  | [] => s.waits
  | .reset :: rest => State.hardReset rest
  | .command cmd :: rest => runWord cmd (s.taken rest) run

/-- One step of the block with the stated configuration. -/
def step (s : State) : Host.Outcome State Fault Refusal := stepBy exec s

/-- One step of the block built with the configuration `cfg` (00_scope.md R4). -/
def stepWith (cfg : Config) (s : State) : Result := stepBy (execWith cfg) s

/-- `s` with the command word `w` given by the host next, before anything else it is about to give (log entry 1). -/
def State.withFetchWord (s : State) (_nbits w : Nat) : State :=
  { s with pending := .command (BitVec.ofNat 16 w) :: s.pending }

end Sys2Proof.Machine
end

