-- ==== Sys2Proof/Machine/Asm.lean ====
section
/-! DEFINITION. The assembler syntax of 30_encoding.md R59 and the pseudo-instructions of R60: a line is a command or is
empty, a program is the list of its commands' words. Lexical details the rule leaves open are log entry 9. -/

namespace Sys2Proof.Machine

/-- How a mnemonic is written: alone, or followed by one operand (30_encoding.md R59). -/
inductive AsmForm where
  | alone (i : Instr)
  | operand (build : Byte → Instr)

/-- The 18 mnemonics (30_encoding.md R54) and the 4 pseudo-instructions (30_encoding.md R60). -/
def asmTable : List (String × AsmForm) := [
  ("NOP", .alone .nop), ("CLR", .alone .clr), ("RDREG", .operand .rdreg), ("SETR", .operand .setr),
  ("PUSH", .operand .push), ("LDW", .operand .ldw), ("STW", .operand .stw), ("RDRS", .operand .rdrs),
  ("GFLDI", .operand .gfldi), ("GFADDI", .operand .gfaddi), ("GFMULI", .operand .gfmuli),
  ("GFLOG", .alone .gflog), ("GFEXP", .alone .gfexp),
  ("GENRD", .operand .genrd), ("SHL", .alone .shl), ("MACG", .alone .macg), ("STEP", .alone .step), ("ENC", .alone .enc),
  ("RDACC", .alone .rdacc), ("RDR", .alone .rdr), ("RDD", .alone .rdd), ("STAT", .alone .stat)]

/-- The line up to its comment: `;` starts a comment that runs to the end of the line (30_encoding.md R59). -/
def stripComment : List Char → List Char
  | [] => []
  | c :: cs => if c = ';' then [] else c :: stripComment cs

/-- The words of a line, `word` being the letters read since the last blank, the last first. -/
def tokens : List Char → List Char → List (List Char)
  | [], word => if word = [] then [] else [word.reverse]
  | c :: cs, word =>
    if c = ' ' ∨ c = '\t' then (if word = [] then tokens cs [] else word.reverse :: tokens cs [])
    else tokens cs (c :: word)

/-- The value of a digit below `base` (10 or 16). -/
def digitValue (base : Nat) (c : Char) : Option Nat :=
  let v := if '0'.toNat ≤ c.toNat ∧ c.toNat ≤ '9'.toNat then c.toNat - '0'.toNat
    else if 'A'.toNat ≤ c.toNat ∧ c.toNat ≤ 'F'.toNat then c.toNat - 'A'.toNat + 10
    else if 'a'.toNat ≤ c.toNat ∧ c.toNat ≤ 'f'.toNat then c.toNat - 'a'.toNat + 10
    else base
  if v < base then some v else none

/-- The number a run of digits spells, continuing from `n`. -/
def digitsValue (base : Nat) : Nat → List Char → Option Nat
  | n, [] => some n
  | n, c :: cs =>
    match digitValue base c with
    | some d => digitsValue base (n * base + d) cs
    | none => none

/-- The number a word spells: decimal, or hexadecimal after `0x` (30_encoding.md R59). -/
def numberValue : List Char → Option Nat
  | '0' :: 'x' :: d :: ds => digitsValue 16 0 (d :: ds)
  | d :: ds => digitsValue 10 0 (d :: ds)
  | [] => none

/-- The operand: an unsigned integer 0..255 (30_encoding.md R59). -/
def operandValue (word : List Char) : Option Byte :=
  match numberValue word with
  | some n => if n ≤ 255 then some (BitVec.ofNat 8 n) else none
  | none => none

/-- The command a mnemonic and its operands spell. -/
def parseCommand (name : List Char) (args : List (List Char)) : Option Instr :=
  match asmTable.find? (fun row => row.1.toList = name), args with
  | some (_, .alone i), [] => some i
  | some (_, .operand build), [arg] => (operandValue arg).map build
  | _, _ => none

/-- One line, as characters: `none` if it is not of the syntax, no command if it holds only blanks and a comment
(30_encoding.md R59). -/
def parseChars (line : List Char) : Option (Option Instr) :=
  match tokens (stripComment line) [] with
  | [] => some none
  | name :: args => (parseCommand name args).map some

/-- One line (30_encoding.md R59). -/
def parseLine (line : String) : Option (Option Instr) := parseChars line.toList

/-- The words of a program, one command a line (30_encoding.md R59): "its encoding is the sequence of their 16-bit words". -/
def assemble : List String → Option (List Word16)
  | [] => some []
  | line :: lines =>
    match parseLine line, assemble lines with
    | some (some i), some words => some (encode i :: words)
    | some none, some words => some words
    | _, _ => none

/-- The character of a digit 0..15. -/
def digitChar (d : Nat) : Char := ['0', '1', '2', '3', '4', '5', '6', '7', '8', '9', 'A', 'B', 'C', 'D', 'E', 'F'].getD d '0'

/-- An operand written in decimal (30_encoding.md R59, `PUSH 236`). -/
def decimalText (b : Byte) : List Char :=
  let n := b.toNat
  if n < 10 then [digitChar n]
  else if n < 100 then [digitChar (n / 10), digitChar (n % 10)]
  else [digitChar (n / 100), digitChar (n / 10 % 10), digitChar (n % 10)]

/-- An operand written in hexadecimal (30_encoding.md R59, `PUSH 0xEC`). -/
def hexText (b : Byte) : List Char := ['0', 'x', digitChar (b.toNat / 16), digitChar (b.toNat % 16)]

/-- How a command is written, its operand spelled by `spell` (30_encoding.md R59). -/
def asmText (spell : Byte → List Char) (i : Instr) : List Char :=
  match i.operand with
  | some b => i.mnemonic.toList ++ ' ' :: spell b
  | none => i.mnemonic.toList

end Sys2Proof.Machine
end

