-- ==== Sys2Proof/Machine/Reference.lean ====
section
/-! DEFINITION. The spec's own second accounts of what the machine does, to which claims compare it: the opcode table as
rows (30_encoding.md R54), the table of checks (60_exceptions.md R122), the table of data bytes (30_encoding.md R58), the
carry-less product (42_gf.md R88), polynomials over the field (00_scope.md R8; 20_memory.md R46) and the feedback shift
register (43_poly.md R109). No meaning calls any of them. -/

namespace Sys2Proof.Machine

/-! The opcode table. -/

/-- A row of the opcode table (30_encoding.md R54); `build` gives the command of an immediate, `legal` the immediates the
row admits (30_encoding.md R55). -/
structure OpcodeRow where
  mnemonic : String
  matchBits : Word16
  maskBits : Word16
  legal : Byte → Bool
  build : Byte → Instr

/-- A format-I row: any immediate (30_encoding.md R51). -/
def rowI (mnemonic : String) (matchBits : Word16) (build : Byte → Instr) : OpcodeRow :=
  { mnemonic, matchBits, maskBits := 0xFF00, legal := fun _ => true, build }

/-- A format-Z row: the mask covers the whole word (30_encoding.md R52). -/
def rowZ (mnemonic : String) (matchBits : Word16) (i : Instr) : OpcodeRow :=
  { mnemonic, matchBits, maskBits := 0xFFFF, legal := fun _ => true, build := fun _ => i }

/-- The 18 rows (30_encoding.md R54), RDREG's with its constraint (30_encoding.md R55). -/
def opcodeRows : List OpcodeRow := [
  rowZ "NOP" 0x0000 .nop,
  rowZ "CLR" 0x0100 .clr,
  { rowI "RDREG" 0x0200 .rdreg with legal := fun n => decide (n.toNat ≤ 3) },
  rowI "SETR" 0x0300 .setr,
  rowI "PUSH" 0x1000 .push,
  rowI "LDW" 0x1100 .ldw,
  rowI "STW" 0x1200 .stw,
  rowI "RDRS" 0x1300 .rdrs,
  rowI "GFLDI" 0x2000 .gfldi,
  rowI "GFADDI" 0x2100 .gfaddi,
  rowI "GFMULI" 0x2200 .gfmuli,
  rowZ "GFLOG" 0x2300 .gflog,
  rowZ "GFEXP" 0x2400 .gfexp,
  rowI "GENRD" 0x3000 .genrd,
  rowZ "SHL" 0x3100 .shl,
  rowZ "MACG" 0x3200 .macg,
  rowZ "STEP" 0x3300 .step,
  rowZ "ENC" 0x3400 .enc]

/-- `cmd` is a word of the row (30_encoding.md R54): `(cmd and mask) = match`. -/
def OpcodeRow.selects (row : OpcodeRow) (cmd : Word16) : Bool := decide (cmd &&& row.maskBits = row.matchBits)

/-- The 18 listed opcodes (30_encoding.md R54). -/
def listedOpcodes : List Byte :=
  [0x00, 0x01, 0x02, 0x03, 0x10, 0x11, 0x12, 0x13, 0x20, 0x21, 0x22, 0x23, 0x24, 0x30, 0x31, 0x32, 0x33, 0x34]

/-- The format-Z opcodes (30_encoding.md R55). -/
def formatZOpcodes : List Byte := [0x00, 0x01, 0x23, 0x24, 0x31, 0x32, 0x33, 0x34]

/-- What 30_encoding.md R55 calls an illegal command. -/
def illegalWord (cmd : Word16) : Prop :=
  cmd.extractLsb' 8 8 ∉ listedOpcodes ∨
  (cmd.extractLsb' 8 8 ∈ formatZOpcodes ∧ cmd.extractLsb' 0 8 ≠ 0) ∨
  (cmd.extractLsb' 8 8 = 0x02 ∧ 4 ≤ (cmd.extractLsb' 0 8).toNat)

/-! The tables of checks and of data bytes. -/

/-- The first check of the table of 60_exceptions.md R122 that fails, outside the faulted state, as the code it gives;
`none` where the command completes. The index that the table calls 255 is the one above `NMAX - 1` (41_buffer.md R77, R78). -/
def failingCode (i : Instr) (s : State) (cfg : Config := Config.stated) : Option (BitVec 3) :=
  match i with
  | .nop | .clr | .gfldi _ | .gfaddi _ | .gfmuli _ | .gfexp => none
  | .rdreg n => if 4 ≤ n.toNat then some 1 else none
  | .setr r => if s.done then some 5 else if r.toNat < 7 ∨ 68 < r.toNat then some 2 else none
  | .push _ => if s.done then some 5 else if s.dlen.toNat = cfg.nmax then some 4 else none
  | .ldw j => if cfg.nmax - 1 < j.toNat then some 2 else none
  | .stw j => if s.done then some 5 else if cfg.nmax - 1 < j.toNat then some 2 else none
  | .rdrs j => if !s.done then some 5 else if s.rlen.toNat ≤ j.toNat then some 2 else none
  | .gflog => if s.acc = 0 then some 6 else none
  | .genrd k => if s.rlen = 0 then some 2 else if s.rlen.toNat ≤ k.toNat then some 2 else none
  | .shl => if s.done then some 5 else none
  | .macg => if s.done then some 5 else if s.rlen = 0 then some 2 else none
  | .step => if s.done then some 5 else if s.rlen = 0 then some 2 else none
  | .enc =>
    if s.done then some 5 else if s.dlen = 0 then some 3 else if s.rlen = 0 then some 2
    else if cfg.nmax < s.dlen.toNat + s.rlen.toNat then some 2 else none

/-- The data byte of a command that completes, from the state `s` before it and the state `t` after it
(30_encoding.md R58). -/
def completedData (i : Instr) (s t : State) : Byte :=
  match i with
  | .nop | .clr | .setr _ | .push _ | .stw _ | .shl | .macg | .step | .enc => 0
  | .rdreg n =>
    if n = 0 then s.acc else if n = 1 then s.rlen.setWidth 8 else if n = 2 then s.dlen else s.status
  | .ldw j => s.w.read j.toNat
  | .rdrs j => s.w.read j.toNat
  | .gfldi _ | .gfaddi _ | .gfmuli _ | .gflog | .gfexp | .genrd _ => t.acc

/-! Who writes what. -/

/-- The commands that write `ACC` (10_state.md R11). -/
def writesAcc : Instr → Bool
  | .gfldi _ | .gfaddi _ | .gfmuli _ | .gflog | .gfexp | .ldw _ | .genrd _ | .clr => true
  | .nop | .rdreg _ | .setr _ | .push _ | .stw _ | .rdrs _ | .shl | .macg | .step | .enc => false

/-- The commands that read `ACC` (10_state.md R11). -/
def readsAcc : Instr → Bool
  | .gfaddi _ | .gfmuli _ | .gflog | .gfexp | .stw _ | .macg => true
  | .rdreg n => decide (n = 0)
  | .nop | .clr | .setr _ | .push _ | .ldw _ | .rdrs _ | .gfldi _ | .genrd _ | .shl | .step | .enc => false

/-- The commands that write `W` (10_state.md R20). -/
def writesBuffer : Instr → Bool
  | .push _ | .stw _ | .shl | .macg | .step | .enc | .clr => true
  | .nop | .rdreg _ | .setr _ | .ldw _ | .rdrs _ | .gfldi _ | .gfaddi _ | .gfmuli _ | .gflog | .gfexp | .genrd _ => false

/-- The commands that fault with `E_SEQ` while `DONE = 1` (10_state.md R15). -/
def frozenByDone : Instr → Bool
  | .setr _ | .push _ | .stw _ | .shl | .macg | .step | .enc => true
  | .nop | .clr | .rdreg _ | .ldw _ | .rdrs _ | .gfldi _ | .gfaddi _ | .gfmuli _ | .gflog | .gfexp | .genrd _ => false

/-! The field without tables. -/

/-- The carry-less product of two bytes, 15 bits (42_gf.md R88). -/
def clProduct (a b : Byte) : BitVec 15 :=
  (List.range 8).foldl (fun p i => if b.getLsbD i then p ^^^ (a.setWidth 15 <<< i) else p) 0

/-- Reduction modulo x^8+x^4+x^3+x^2+1, from bit 14 down to bit 8 (42_gf.md R88). -/
def clReduce (p : BitVec 15) : BitVec 15 :=
  [14, 13, 12, 11, 10, 9, 8].foldl (fun p i => if p.getLsbD i then p ^^^ ((0x11D : BitVec 15) <<< (i - 8)) else p) p

/-- The field product without tables (42_gf.md R88). -/
def carrylessMul (a b : Byte) : Byte := (clReduce (clProduct a b)).setWidth 8

/-! Polynomials over the field: lists of coefficients, the highest power first (00_scope.md R8). -/

/-- The byte-wise sum of the shorter list `xs` into the first entries of `ys`. -/
def xorPrefix : List Byte → List Byte → List Byte
  | [], ys => ys
  | xs, [] => xs
  | x :: xs, y :: ys => (x ^^^ y) :: xorPrefix xs ys

/-- The product of two polynomials. -/
def polyMul : List Byte → List Byte → List Byte
  | [], q => List.replicate (q.length - 1) 0
  | a :: p, q => xorPrefix (q.map (gfmul a)) (0 :: polyMul p q)

/-- The value of a polynomial at `x`. -/
def polyEval (p : List Byte) (x : Byte) : Byte := p.foldl (fun v c => gfmul v x ^^^ c) 0

/-- `g_r(x) = (x + ALPHA^0)(x + ALPHA^1)...(x + ALPHA^(r-1))` (20_memory.md R46). -/
def generatorPoly : Nat → List Byte
  | 0 => [1]
  | n + 1 => polyMul (generatorPoly n) [1, antilog n]

/-- The coefficients whose logs a row of `GEN` holds (20_memory.md R45). -/
def termCoefficients (terms : List Byte) : List Byte := terms.map fun t => antilog t.toNat

/-- The named property of 92_eei_decisions.md D31: "GEN[r] holds the logs of the non-leading coefficients of g_r". -/
def genHoldsGenerator (r : Nat) (cfg : Config := Config.stated) : Prop :=
  ∃ terms, genRow r cfg = some terms ∧ generatorPoly r = 1 :: termCoefficients terms

/-- One data byte fed into the feedback shift register `S[0..r-1]`, `coeffs` being `EXP[GEN[r][k]]` (43_poly.md R109). -/
def lfsrFeed (coeffs reg : List Byte) (c : Byte) : List Byte :=
  List.zipWith (fun next g => next ^^^ gfmul (reg.headD 0 ^^^ c) g) (reg.tail ++ [0]) coeffs

/-- The register after the data bytes, all zero at the start (43_poly.md R109). -/
def lfsr (coeffs data : List Byte) : List Byte :=
  data.foldl (lfsrFeed coeffs) (List.replicate coeffs.length 0)

end Sys2Proof.Machine
end

