-- ==== Sys2Proof/Safety.lean ====
section
/-! DEFINITION. The terms in which claims speak of the machine: the states a command can leave, the invariants of
10_state.md R24, and what a call is (70_reset_and_hazards.md R143). -/

namespace Sys2Proof

/-- The configurations of which claims speak (log entry 6, DEDUCED): at most 255 entries, since "the encodings (8-bit indices,
8-bit `DLEN`) admit no larger value" (93_implementation_defined.md U16), more than `RMAX` of them (20_memory.md R33), and for
every degree 7..68 and no other a row of that many entries, each 0..254 (20_memory.md R45). The spec states none of these as
a condition on a configuration. -/
structure Config.Admissible (cfg : Config) : Prop where
  nmax_le : cfg.nmax ≤ 255
  rmax_lt : Config.rmax < cfg.nmax
  rows : cfg.gen.map List.length = (List.range 62).map (· + Config.rmin)
  entries : ∀ row ∈ cfg.gen, ∀ g ∈ row, g.toNat ≤ 254

end Sys2Proof

namespace Sys2Proof.Machine

/-! The states a command can leave. -/

/-- After a command that completes and writes only its response. -/
def State.afterAnswer (s : State) (data : Byte) : State := { s with rsp := some (s.responseWord data) }

/-- After a command that completes and writes `ACC` alone, with the new `ACC` as its data byte (30_encoding.md R58). -/
def State.afterAcc (s : State) (t : Byte) : State := { s with acc := t, rsp := some (s.responseWord t) }

/-- After a fault with the code `c`: `ERR` and the response, nothing else (60_exceptions.md R123). -/
def State.afterFault (s : State) (c : BitVec 3) : State :=
  { s with err := c, rsp := some (State.responseWord { s with err := c } 0) }

/-- After a rejection in the faulted state: the response, nothing else (60_exceptions.md R124). -/
def State.afterReject (s : State) : State := { s with rsp := some (s.responseWord 0) }

/-! The invariants (10_state.md R24 (a) to (d)), and that the buffer has its canonical form (log entry 7). -/

/-- `r` is a degree the ROM holds (00_scope.md R4). -/
abbrev degreeHeld (r : Nat) : Prop := Config.rmin ≤ r ∧ r ≤ Config.rmax

/-- What holds in every state reachable from reset (10_state.md R24 (a) to (d)). -/
structure State.Inv (s : State) (cfg : Config := Config.stated) : Prop where
  buffer : s.w.wf cfg = true
  rlen : s.rlen.toNat = 0 ∨ degreeHeld s.rlen.toNat
  dlen : s.dlen.toNat ≤ cfg.nmax
  err : s.err.toNat ≤ 6
  done : s.done = true → degreeHeld s.rlen.toNat ∧ 1 ≤ s.dlen.toNat ∧ s.dlen.toNat + s.rlen.toNat ≤ cfg.nmax

/-- No byte stands above the data before `ENC`, none above the result after it (10_state.md R24 (e), (f)). -/
structure State.ZeroTail (s : State) : Prop where
  data : s.done = false → ∀ j, s.dlen.toNat ≤ j → s.w.read j = 0
  result : s.done = true → ∀ j, s.rlen.toNat ≤ j → s.w.read j = 0

/-- The raw commands, after which R24 (e) and (f) are not promised: `STW`, `SHL`, `MACG`, `STEP`. -/
def isRaw : Instr → Bool
  | .stw _ | .shl | .macg | .step => true
  | .nop | .clr | .rdreg _ | .setr _ | .push _ | .ldw _ | .rdrs _ | .gfldi _ | .gfaddi _ | .gfmuli _
  | .gflog | .gfexp | .genrd _ | .enc => false

/-- The command words that still execute in the faulted state: `NOP`, `CLR`, `RDREG 0..3` (60_exceptions.md R124). -/
def runsWhenFaulted : Instr → Bool
  | .nop | .clr => true
  | .rdreg n => decide (n.toNat ≤ 3)
  | .setr _ | .push _ | .ldw _ | .stw _ | .rdrs _ | .gfldi _ | .gfaddi _ | .gfmuli _
  | .gflog | .gfexp | .genrd _ | .shl | .macg | .step | .enc => false

/-! Calls. -/

/-- A block loaded for `ENC`: `r` set, the bytes `data` pushed, nothing else in the buffer (70_reset_and_hazards.md R143). -/
structure State.Loaded (s : State) (r : Nat) (data : List Byte) (cfg : Config := Config.stated) : Prop where
  running : s.err = 0
  open_ : s.done = false
  degree : s.rlen.toNat = r
  count : s.dlen.toNat = data.length
  buffer : s.w.wf cfg = true
  bytes : ∀ j, s.w.read j = data.getD j 0

/-- `d` data codewords and `r` RS codewords fit one block (43_poly.md R106). -/
abbrev blockFits (r : Nat) (data : List Byte) (cfg : Config := Config.stated) : Prop :=
  degreeHeld r ∧ 1 ≤ data.length ∧ data.length + r ≤ cfg.nmax

/-- The first `r` bytes of the buffer: after `ENC`, the RS codewords in order (43_poly.md R107). -/
def State.result (s : State) (r : Nat) : List Byte := (List.range r).map s.w.read

/-- The commands of a call up to `ENC` (70_reset_and_hazards.md R143). -/
def callCommands (r : Byte) (data : List Byte) : List Instr :=
  [.clr, .setr r] ++ data.map .push ++ [.enc]

/-- What the host gives in a call up to `ENC`: the words of its commands, in order. -/
def callInputs (r : Byte) (data : List Byte) : List HostInput :=
  (callCommands r data).map fun i => .command (encode i)

/-- `n` executions of the one command `i`, stopping where one gives no next state. -/
def execTimes (i : Instr) : Nat → State → Result
  | 0, s => .next s
  | n + 1, s =>
    match exec i s with
    | .next t => execTimes i n t
    | .fault f => .fault f
    | .refused f => .refused f

/-- An outcome with `ACC` blotted out: two outcomes that differ in nothing else become equal. -/
def forgetAcc : Result → Result
  | .next t => .next { t with acc := 0 }
  | .fault f => .fault f
  | .refused f => .refused f

end Sys2Proof.Machine
end

