-- ==== Sys2Proof/Certificates/Slice0/Obligations.lean ====
section
/-! DEFINITION. The statements for the provers, each a rule of the spec or a consequence of several. In them
`s.afterFault c`, `s.afterReject`, `s.afterAcc t` and `s.afterAnswer d` (Safety.lean) are the whole next state: every field
but those they name is that of `s`, so each is also a frame. -/

open Sys2Proof Sys2Proof.Machine

/-! ## Encoding -/

/-- One word of each family, written out bit by bit from 30_encoding.md R51, R52, R54, decodes to its command. -/
def Obligations.WordsOfEveryFamilyDecode : Prop :=
  decode 0b0000000000000000#16 = .ok .nop ∧
  decode 0b0000001000000011#16 = .ok (.rdreg 3) ∧
  decode 0b0000001101000100#16 = .ok (.setr 68) ∧
  decode 0b0001000010101011#16 = .ok (.push 0xAB) ∧
  decode 0b0001001011111111#16 = .ok (.stw 255) ∧
  decode 0b0010001000000010#16 = .ok (.gfmuli 2) ∧
  decode 0b0010001100000000#16 = .ok .gflog ∧
  decode 0b0011000000000110#16 = .ok (.genrd 6) ∧
  decode 0b0011010000000000#16 = .ok .enc

/-- Decoding the word of a well-formed command gives the command back, every operand at every value (R50 to R54). -/
def Obligations.DecodeOfEncodeIsTheCommand : Prop :=
  ∀ i : Instr, i.wellFormed = true → decode (encode i) = .ok i

/-- A word that decodes is the word of what it decodes to, so each legal word has one meaning (R50 to R55). -/
def Obligations.EncodeOfDecodeIsTheWord : Prop :=
  ∀ (cmd : Word16) (i : Instr), decode cmd = .ok i → i.wellFormed = true ∧ encode i = cmd

/-- The decoder is the opcode table: a word is the command of a row exactly when `(cmd and mask) = match` (R54), RDREG's
row with the constraint of R55, and no word lies in two rows. -/
def Obligations.DecodeIsTheOpcodeTable : Prop :=
  (∀ (cmd : Word16) (i : Instr), decode cmd = .ok i ↔
    ∃ row ∈ opcodeRows, row.selects cmd = true ∧ row.legal (immField cmd) = true ∧ i = row.build (immField cmd)) ∧
  opcodeRows.Pairwise (fun a b => ∀ cmd, ¬ (a.selects cmd = true ∧ b.selects cmd = true)) ∧
  opcodeRows.length = 18 ∧
  ∀ row ∈ opcodeRows, ∀ imm, (row.build imm).mnemonic = row.mnemonic

/-- The illegal words are those R55 lists, and an illegal word executes nothing: it faults with `E_ILL`, or is rejected in
the faulted state. -/
def Obligations.IllegalWordsFaultOrAreRejected : Prop :=
  (∀ cmd : Word16, (∃ e, decode cmd = .error e) ↔ illegalWord cmd) ∧
  (∀ (s : State) (cmd : Word16) (rest : List HostInput), s.pending = .command cmd :: rest → illegalWord cmd →
    step s = .next (if s.err = 0 then (s.taken rest).afterFault 1 else (s.taken rest).afterReject)) ∧
  (listedOpcodes.length = 18 ∧ listedOpcodes.Nodup) ∧
  (∀ cmd, decode cmd = .ok .nop ↔ cmd = 0x0000) ∧ illegalWord 0xFFFF

/-- Every command written as R59 says, its operand in decimal or in hexadecimal, is read back as that command; the
pseudo-instructions of R60 are read as their expansions. -/
def Obligations.AssemblerReadsEveryCommandBack : Prop :=
  (∀ i : Instr, parseChars (asmText decimalText i) = some (some i) ∧ parseChars (asmText hexText i) = some (some i)) ∧
  assemble ["RDACC", "RDR", "RDD", "STAT"] = some [0x0200, 0x0201, 0x0202, 0x0203]

/-! ## The step -/

/-- A step is the decoded command executed at the state with the word taken; around it the step only takes the host's next
entry. What it does with an empty queue, with a reset entry and with `withFetchWord` is the model's choice (log entries 1,
2, 3). -/
def Obligations.StepRunsTheDecodedCommand : Prop :=
  (∀ (s : State) (cmd : Word16) (rest : List HostInput) (i : Instr),
    s.pending = .command cmd :: rest → decode cmd = .ok i → step s = exec i { s with pending := rest }) ∧
  (∀ (s : State) (rest : List HostInput), s.pending = .reset :: rest →
    step s = .next { State.reset with pending := rest }) ∧
  (∀ s : State, s.pending = [] → step s = .next { s with rsp := none }) ∧
  (∀ (s : State) (i : Instr) (nbits : Nat), i.wellFormed = true →
    step (s.withFetchWord nbits (encode i).toNat) = exec i s)

/-- The six steps of R65: what a word does in the faulted state, an illegal word, a command whose checks fail, a command
that executes, and the response word of each. -/
def Obligations.StepFollowsTheSixStepsOfOneCommand : Prop :=
  ∀ (s : State) (cmd : Word16) (rest : List HostInput), s.pending = .command cmd :: rest →
    (s.err ≠ 0 → (∀ i, decode cmd = .ok i → runsWhenFaulted i = true → step s = exec i (s.taken rest)) ∧
      ((∀ i, decode cmd = .ok i → runsWhenFaulted i = false) → step s = .next (s.taken rest).afterReject)) ∧
    (s.err = 0 → (∀ e, decode cmd = .error e → step s = .next ((s.taken rest).afterFault 1)) ∧
      (∀ i, decode cmd = .ok i → step s = exec i (s.taken rest) ∧
        ∀ c, failingCode i (s.taken rest) = some c → step s = .next ((s.taken rest).afterFault c))) ∧
    (∀ t, step s = .next t → ∃ data : Byte, t.rsp = some (t.status ++ data)) ∧
    (s.Inv → ∃ t, step s = .next t)

/-- From every state that meets the invariants, every step gives a next state: the block is never stuck, whatever the host
gives (R65: "it always ends, always gives a response"). -/
def Obligations.StepNeverStops : Prop :=
  ∀ s : State, s.Inv → (∃ t, step s = .next t) ∧ ∀ i : Instr, ∃ t, exec i s = .next t

/-- The reset state meets the invariants of R24, and has nothing listed in the buffer (R23). -/
def Obligations.ResetMeetsTheInvariants : Prop :=
  State.reset.Inv ∧ State.reset.ZeroTail ∧ ∀ j, State.reset.w.read j = 0

/-- Every step keeps the invariants of R24 (a) to (d) and the canonical form of the buffer. -/
def Obligations.EveryStepKeepsTheInvariants : Prop :=
  ∀ s t : State, s.Inv → step s = .next t → t.Inv

/-- R24 (e) and (f), as an invariant of every step whose command is not `STW`, `SHL`, `MACG` or `STEP`: no byte stands above
the data before `ENC`, none above the result after it. -/
def Obligations.StepsWithoutRawCommandsKeepTheZeroTail : Prop :=
  ∀ s t : State, s.Inv → s.ZeroTail → step s = .next t →
    (∀ cmd rest i, s.pending = .command cmd :: rest → decode cmd = .ok i → isRaw i = false) → t.ZeroTail

/-! ## Status, response, faults -/

/-- The layout of STATUS (R17), and that it is the high byte of the response word. -/
def Obligations.StatusHasItsLayout : Prop :=
  (∀ s : State,
    s.status.getLsbD 7 = decide (s.err ≠ 0) ∧ s.status.getLsbD 6 = s.done ∧ s.status.getLsbD 5 = decide (s.rlen ≠ 0) ∧
    s.status.getLsbD 4 = false ∧ s.status.getLsbD 3 = false ∧ s.status.extractLsb' 0 3 = s.err ∧
    ∀ data, (s.responseWord data).extractLsb' 8 8 = s.status ∧ (s.responseWord data).extractLsb' 0 8 = data) ∧
  State.reset.status = 0x00

/-- Every command word gets exactly one response word, `{STATUS, data}` with the STATUS of the state after the command; its
bit 15 is 0 after a command that completed and 1 after one that faulted or was rejected, except that `NOP` and `RDREG`
complete in the faulted state and still answer 1 (R57). -/
def Obligations.EveryCommandWordGetsOneResponse : Prop :=
  ∀ (s t : State) (cmd : Word16) (rest : List HostInput), s.pending = .command cmd :: rest → step s = .next t →
    t.pending = rest ∧
    ∃ data : Byte, t.rsp = some (t.status ++ data) ∧
      (t.status ++ data).getLsbD 15 = decide (t.err ≠ 0) ∧
      (s.err = 0 → ((t.status ++ data).getLsbD 15 = false ↔
        ∃ i, decode cmd = .ok i ∧ failingCode i (s.taken rest) = none)) ∧
      (s.err ≠ 0 → ((t.status ++ data).getLsbD 15 = false ↔ decode cmd = .ok .clr))

/-- The data byte of each command (R58): its own value where the command completes, `0x00` where it faults, is rejected or is
illegal. -/
def Obligations.DataByteOfEveryCommand : Prop :=
  (∀ (i : Instr) (s t : State), i.wellFormed = true → exec i s = .next t →
    t.rsp = some (t.status ++
      (if (s.err = 0 ∧ failingCode i s = none) ∨ (s.err ≠ 0 ∧ runsWhenFaulted i = true)
        then completedData i s t else 0)) ∧
    (∀ j, i = .ldw j → s.err = 0 → failingCode i s = none → t.acc = completedData i s t)) ∧
  (∀ (s t : State) (cmd : Word16) (rest : List HostInput), s.pending = .command cmd :: rest → illegalWord cmd →
    step s = .next t → t.rsp = some (t.status ++ (0 : Byte)))

/-- The table of checks (R122): outside the faulted state a command raises the code of its first check that fails, and
completes where none fails; so a command raises no code that the table does not list against it. -/
def Obligations.ChecksFollowTheTable : Prop :=
  ∀ (i : Instr) (s : State), s.err = 0 →
    (∀ c, failingCode i s = some c → exec i s = .next (s.afterFault c)) ∧
    (failingCode i s = none → s.Inv → ∃ t, exec i s = .next t ∧ t.err = 0)

/-- Fault entry (R123): when a command word given with `ERR = 0` leaves `ERR` nonzero, nothing but `ERR` and the response has
changed, and the response is `{STATUS, 0x00}` with bit 15 set and the code in bits 10:8. -/
def Obligations.FaultChangesErrAlone : Prop :=
  ∀ (s t : State) (cmd : Word16) (rest : List HostInput), s.pending = .command cmd :: rest → s.err = 0 →
    step s = .next t → t.err ≠ 0 →
    t.acc = s.acc ∧ t.rlen = s.rlen ∧ t.dlen = s.dlen ∧ t.done = s.done ∧ t.w = s.w ∧ t.pending = rest ∧
    ∃ rsp : Word16, t.rsp = some rsp ∧ rsp = t.status ++ (0 : Byte) ∧ rsp.getLsbD 15 = true ∧ rsp.extractLsb' 8 3 = t.err

/-- The faulted state (R124): `NOP`, `CLR` and `RDREG 0..3` execute, every other word, legal or illegal, is rejected with no
change and the response `{STATUS, 0x00}`, which has `FAULT = 1`. -/
def Obligations.FaultedStateRejectsAllButThree : Prop :=
  ∀ (s : State) (cmd : Word16) (rest : List HostInput), s.pending = .command cmd :: rest → s.err ≠ 0 →
    ((∀ i, decode cmd = .ok i → runsWhenFaulted i = false) →
      step s = .next { s with pending := rest, rsp := some (s.status ++ (0 : Byte)) } ∧
      (s.status ++ (0 : Byte)).getLsbD 15 = true) ∧
    (decode cmd = .ok .nop → step s = .next { s with pending := rest, rsp := some (s.status ++ (0 : Byte)) }) ∧
    (decode cmd = .ok .clr → step s = .next { State.reset with pending := rest, rsp := some 0x0000 }) ∧
    (decode cmd = .ok (.rdreg 0) → step s = .next { s with pending := rest, rsp := some (s.status ++ s.acc) }) ∧
    (decode cmd = .ok (.rdreg 1) →
      step s = .next { s with pending := rest, rsp := some (s.status ++ s.rlen.setWidth 8) }) ∧
    (decode cmd = .ok (.rdreg 2) → step s = .next { s with pending := rest, rsp := some (s.status ++ s.dlen) }) ∧
    (decode cmd = .ok (.rdreg 3) → step s = .next { s with pending := rest, rsp := some (s.status ++ s.status) })

/-- Return from the faulted state is `CLR` or reset and nothing else, and it restores nothing: each of the two leads to the
reset state (R127), and every other step leaves `ERR` at the first code, so faults do not nest (R128). -/
def Obligations.OnlyClrOrResetLeavesTheFaultedState : Prop :=
  ∀ s : State, s.err ≠ 0 →
    (∀ rest, s.pending = .reset :: rest → step s = .next { State.reset with pending := rest }) ∧
    (∀ cmd rest, s.pending = .command cmd :: rest → decode cmd = .ok .clr →
      step s = .next { State.reset with pending := rest, rsp := some 0x0000 }) ∧
    (∀ t, step s = .next t → (∀ rest, s.pending ≠ .reset :: rest) →
      (∀ cmd rest, s.pending = .command cmd :: rest → decode cmd ≠ .ok .clr) → t.err = s.err)

/-- `ERR` (R16): written only by a fault and only when it is 0, with a code 1..6; 7 is never written; cleared only by `CLR` and
reset; visible as bits 2:0 of STATUS; 0 after reset; while it is nonzero every command but `NOP`, `CLR` and `RDREG` is
rejected. -/
def Obligations.ErrHoldsTheFirstFault : Prop :=
  (∀ s t : State, step s = .next t →
    (s.err = 0 → t.err ≠ 0 → t.err.toNat ≤ 6 ∧ ∃ cmd rest, s.pending = .command cmd :: rest ∧
      ((∃ e, decode cmd = .error e) ∧ t.err = 1 ∨ ∃ i, decode cmd = .ok i ∧ failingCode i (s.taken rest) = some t.err)) ∧
    (s.err ≠ 0 → t.err ≠ s.err → t.err = 0 ∧
      ((∃ rest, s.pending = .reset :: rest) ∨ ∃ cmd rest, s.pending = .command cmd :: rest ∧ decode cmd = .ok .clr)) ∧
    (t.err = 7 → s.err = 7)) ∧
  (∀ (s : State) (i : Instr), s.err ≠ 0 → runsWhenFaulted i = false → exec i s = .next s.afterReject) ∧
  (∀ s : State, s.status.extractLsb' 0 3 = s.err) ∧ State.reset.err = 0

/-! ## Who writes the state -/

/-- `ACC` (R11): written by the listed commands alone, cleared by `CLR` and reset, and read by the listed commands alone: the
outcome of any other command, `ACC` itself apart, is the same whatever `ACC` holds. -/
def Obligations.AccHasItsWritersAndReaders : Prop :=
  (∀ (i : Instr) (s t : State), exec i s = .next t → writesAcc i = false → t.acc = s.acc) ∧
  (∀ s t : State, exec .clr s = .next t → t.acc = 0) ∧
  (∀ (s : State) (rest : List HostInput), s.pending = .reset :: rest → ∃ t, step s = .next t ∧ t.acc = 0) ∧
  (∀ (i : Instr) (s : State) (a : Byte), readsAcc i = false →
    forgetAcc (exec i { s with acc := a }) = forgetAcc (exec i s)) ∧
  State.reset.acc = 0

/-- `RLEN` (R13) is written by `SETR` alone, with a value 7..68, and `DLEN` (R14) by `PUSH` alone, incremented by 1 without
passing `NMAX`; `CLR` clears both; no other command changes either. -/
def Obligations.RlenAndDlenHaveTheirWriters : Prop :=
  ∀ (i : Instr) (s t : State), exec i s = .next t →
    (t.rlen = s.rlen ∨ (i = .clr ∧ t.rlen = 0) ∨
      ∃ r, i = .setr r ∧ 7 ≤ r.toNat ∧ r.toNat ≤ 68 ∧ t.rlen.toNat = r.toNat) ∧
    (t.dlen = s.dlen ∨ (i = .clr ∧ t.dlen = 0) ∨
      ∃ b, i = .push b ∧ s.dlen.toNat < 255 ∧ t.dlen.toNat = s.dlen.toNat + 1) ∧
    (i = .clr → t.rlen = 0 ∧ t.dlen = 0)

/-- `DONE` (R15): set only by a successful `ENC`, cleared only by `CLR` and reset; while it is 1 every command that would
write `W`, `RLEN` or `DLEN` faults with `E_SEQ`, so those three stand until `CLR`; visible as bit 6 of STATUS. -/
def Obligations.DoneFreezesAResult : Prop :=
  (∀ (i : Instr) (s : State), s.err = 0 → s.done = true → frozenByDone i = true → exec i s = .next (s.afterFault 5)) ∧
  (∀ (i : Instr) (s t : State), exec i s = .next t → s.done = true → i ≠ .clr →
    t.done = true ∧ t.w = s.w ∧ t.rlen = s.rlen ∧ t.dlen = s.dlen) ∧
  (∀ (i : Instr) (s t : State), exec i s = .next t → s.done = false → t.done = true →
    i = .enc ∧ s.err = 0 ∧ failingCode .enc s = none) ∧
  (∀ s t : State, exec .enc s = .next t → s.err = 0 → failingCode .enc s = none → t.done = true) ∧
  (∀ s t : State, exec .clr s = .next t → t.done = false) ∧
  (∀ (s : State) (rest : List HostInput), s.pending = .reset :: rest → ∃ t, step s = .next t ∧ t.done = false) ∧
  (∀ s : State, s.status.getLsbD 6 = s.done) ∧ State.reset.done = false

/-- The frame of the work buffer (R20, R33): a command that does not write `W` leaves every entry; `PUSH` leaves all but
entry `DLEN`, `STW j` all but entry `j`, `MACG` all above entry `RLEN`; a fault or a rejection leaves every entry; `CLR` makes
every entry 0. No command leaves an entry outside the buffer. -/
def Obligations.WorkBufferFrame : Prop :=
  ∀ (i : Instr) (s t : State), s.Inv → exec i s = .next t →
    (writesBuffer i = false → ∀ a, t.w.read a = s.w.read a) ∧
    (∀ b, i = .push b → ∀ a, a ≠ s.dlen.toNat → t.w.read a = s.w.read a) ∧
    (∀ j, i = .stw j → ∀ a, a ≠ j.toNat → t.w.read a = s.w.read a) ∧
    (i = .macg → ∀ a, s.rlen.toNat < a → t.w.read a = s.w.read a) ∧
    (t.err ≠ 0 → ∀ a, t.w.read a = s.w.read a) ∧
    (i = .clr → ∀ a, t.w.read a = 0) ∧
    (∀ a, 255 ≤ a → t.w.read a = 0)

/-- Reads have no side effect (R34): a reading command that completes, or is rejected, changes nothing but, for those that
write it, `ACC`; one that faults changes `ERR` besides; and a repeated `RDREG`, `LDW`, `RDRS` or `GENRD` gives the same
response. -/
def Obligations.ReadsHaveNoSideEffect : Prop :=
  (∀ (i : Instr) (s t : State), exec i s = .next t →
    (∃ x, i = .ldw x ∨ i = .rdrs x ∨ i = .rdreg x ∨ i = .genrd x ∨ i = .gflog ∨ i = .gfexp) →
    t.w = s.w ∧ t.rlen = s.rlen ∧ t.dlen = s.dlen ∧ t.done = s.done ∧ t.pending = s.pending ∧
    (writesAcc i = false → t.acc = s.acc) ∧ (failingCode i s = none ∨ s.err ≠ 0 → t.err = s.err)) ∧
  (∀ (i : Instr) (s t u : State), exec i s = .next t → exec i t = .next u →
    (∃ x, i = .ldw x ∨ i = .rdrs x ∨ i = .rdreg x ∨ i = .genrd x) → u.rsp = t.rsp)

/-- `CLR` and reset reach the same state, field for field; `CLR` gets the response `0x0000` and reset none (R141), and every
field has the value of R23. -/
def Obligations.ClrAndResetReachTheSameState : Prop :=
  ∀ (s : State) (rest : List HostInput),
    ∃ t u : State, step { s with pending := .command 0x0100 :: rest } = .next t ∧
      step { s with pending := .reset :: rest } = .next u ∧
      u = { t with rsp := none } ∧ t.rsp = some 0x0000 ∧
      u.acc = 0 ∧ u.rlen = 0 ∧ u.dlen = 0 ∧ u.done = false ∧ u.err = 0 ∧ u.status = 0x00 ∧ u.pending = rest ∧
      ∀ j, u.w.read j = 0

/-! ## The system commands -/

/-- `NOP` (R66) executes in every state, changes nothing and answers `0x00`; the word `0x0001` is illegal. -/
def Obligations.NopChangesNothing : Prop :=
  encode .nop = 0x0000 ∧ illegalWord 0x0001 ∧ decode 0x0001 = .error .nonzeroLowByte ∧
  ∀ s : State, exec .nop s = .next { s with rsp := some (s.status ++ (0x00 : Byte)) }

/-- `CLR` (R67) executes in every state and leaves exactly the reset state with the response `0x0000`; it is the only command
that leaves the faulted state and the only one that clears `DONE`. -/
def Obligations.ClrLeavesTheResetState : Prop :=
  encode .clr = 0x0100 ∧
  (∀ s : State, exec .clr s = .next { State.reset with pending := s.pending, rsp := some 0x0000 }) ∧
  (∀ j, State.reset.w.read j = 0) ∧
  (∀ (i : Instr) (s t : State), exec i s = .next t → i ≠ .clr →
    (s.err ≠ 0 → t.err ≠ 0) ∧ (s.done = true → t.done = true))

/-- `RDREG n` (R68, R18): the value of register `n` for `n <= 3`, in every state; a reserved number is an illegal command. -/
def Obligations.RdregReadsTheRegister : Prop :=
  ∀ (n : Byte) (s : State), encode (.rdreg n) = 0x0200#16 + n.setWidth 16 ∧
    (n = 0 → exec (.rdreg n) s = .next (s.afterAnswer s.acc)) ∧
    (n = 1 → exec (.rdreg n) s = .next (s.afterAnswer (s.rlen.setWidth 8))) ∧
    (n = 2 → exec (.rdreg n) s = .next (s.afterAnswer s.dlen)) ∧
    (n = 3 → exec (.rdreg n) s = .next (s.afterAnswer s.status)) ∧
    (4 ≤ n.toNat → illegalWord (0x0200#16 + n.setWidth 16) ∧
      (s.err = 0 → runWord (0x0200#16 + n.setWidth 16) s = .next (s.afterFault 1)) ∧
      (s.err ≠ 0 → runWord (0x0200#16 + n.setWidth 16) s = .next s.afterReject))

/-- `SETR r` (R69): `E_SEQ` if a result is standing, then `E_PARAM` outside 7..68, otherwise `RLEN` takes `r`, and `RSET` is
then 1. -/
def Obligations.SetrSetsRlen : Prop :=
  ∀ (r : Byte) (s : State), encode (.setr r) = 0x0300#16 + r.setWidth 16 ∧ (s.err = 0 →
    (s.done = true → exec (.setr r) s = .next (s.afterFault 5)) ∧
    (s.done = false → r.toNat < 7 ∨ 68 < r.toNat → exec (.setr r) s = .next (s.afterFault 2)) ∧
    (s.done = false → 7 ≤ r.toNat → r.toNat ≤ 68 →
      ∃ v : BitVec 7, v.toNat = r.toNat ∧
        exec (.setr r) s = .next { s with rlen := v, rsp := some (0b00100000#8 ++ (0x00 : Byte)) }))

/-! ## The buffer commands -/

/-- `PUSH b` (R76): `E_SEQ`, then `E_OVF` when the buffer is full, otherwise the byte is written at index `DLEN`, every other
entry stands, and `DLEN` goes up by 1. -/
def Obligations.PushAppendsAtDlen : Prop :=
  ∀ (b : Byte) (s : State), encode (.push b) = 0x1000#16 + b.setWidth 16 ∧ (s.err = 0 →
    (s.done = true → exec (.push b) s = .next (s.afterFault 5)) ∧
    (s.done = false → s.dlen.toNat = 255 → exec (.push b) s = .next (s.afterFault 4)) ∧
    (s.done = false → s.dlen.toNat < 255 → s.w.wf = true →
      ∃ w : Memory, w.wf = true ∧ (∀ a, w.read a = if a = s.dlen.toNat then b else s.w.read a) ∧
        (s.dlen + 1).toNat = s.dlen.toNat + 1 ∧
        exec (.push b) s = .next { s with w := w, dlen := s.dlen + 1, rsp := some (s.responseWord 0) }))

/-- `LDW j` (R77): `E_PARAM` for index 255, otherwise `ACC` and the data byte are `W[j]`, whatever `DONE` is. -/
def Obligations.LdwLoadsAcc : Prop :=
  ∀ (j : Byte) (s : State), encode (.ldw j) = 0x1100#16 + j.setWidth 16 ∧ (s.err = 0 →
    (j = 255 → exec (.ldw j) s = .next (s.afterFault 2)) ∧
    (j ≠ 255 → exec (.ldw j) s = .next (s.afterAcc (s.w.read j.toNat)))) ∧
    (s.err ≠ 0 → exec (.ldw j) s = .next s.afterReject)

/-- `STW j` (R78): `E_SEQ`, then `E_PARAM` for index 255, otherwise `W[j]` takes `ACC`, every other entry and `DLEN` stand. -/
def Obligations.StwStoresAcc : Prop :=
  ∀ (j : Byte) (s : State), encode (.stw j) = 0x1200#16 + j.setWidth 16 ∧ (s.err = 0 →
    (s.done = true → exec (.stw j) s = .next (s.afterFault 5)) ∧
    (s.done = false → j = 255 → exec (.stw j) s = .next (s.afterFault 2)) ∧
    (s.done = false → j ≠ 255 → s.w.wf = true →
      ∃ w : Memory, w.wf = true ∧ (∀ a, w.read a = if a = j.toNat then s.acc else s.w.read a) ∧
        exec (.stw j) s = .next { s with w := w, rsp := some (s.responseWord 0) }))

/-- `RDRS j` (R79): `E_SEQ` before `ENC`, then `E_PARAM` for an index not below `RLEN`, otherwise the data byte is `W[j]` and
nothing is written; after a fault of it the result cannot be read any more. -/
def Obligations.RdrsReadsTheResult : Prop :=
  ∀ (j : Byte) (s : State), encode (.rdrs j) = 0x1300#16 + j.setWidth 16 ∧ (s.err = 0 →
    (s.done = false → exec (.rdrs j) s = .next (s.afterFault 5)) ∧
    (s.done = true → s.rlen.toNat ≤ j.toNat → exec (.rdrs j) s = .next (s.afterFault 2) ∧
      ∀ k, exec (.rdrs k) (s.afterFault 2) = .next (s.afterFault 2) ∧
        exec (.ldw k) (s.afterFault 2) = .next (s.afterFault 2)) ∧
    (s.done = true → j.toNat < s.rlen.toNat → exec (.rdrs j) s = .next (s.afterAnswer (s.w.read j.toNat))))

/-! ## The field commands -/

/-- `GFLDI b` (R89): `ACC` and the data byte are `b`, whatever `DONE` is. -/
def Obligations.GfldiLoadsTheByte : Prop :=
  ∀ (b : Byte) (s : State), encode (.gfldi b) = 0x2000#16 + b.setWidth 16 ∧
    (s.err = 0 → exec (.gfldi b) s = .next (s.afterAcc b))

/-- `GFADDI b` (R90, R85): `ACC` and the data byte are `ACC xor b`; given twice it restores `ACC`. -/
def Obligations.GfaddiAddsInTheField : Prop :=
  ∀ (b : Byte) (s : State), encode (.gfaddi b) = 0x2100#16 + b.setWidth 16 ∧ (s.err = 0 →
    exec (.gfaddi b) s = .next (s.afterAcc (s.acc ^^^ b)) ∧
    ∃ t u, exec (.gfaddi b) s = .next t ∧ exec (.gfaddi b) t = .next u ∧ u.acc = s.acc)

/-- `GFMULI b` (R91, R86): `ACC` and the data byte are `0x00` if a factor is zero, otherwise the antilog of the sum of the
logs mod 255; a factor `0x01` leaves `ACC`, a factor `0x02` is `xtime`. -/
def Obligations.GfmuliMultipliesInTheField : Prop :=
  ∀ (b : Byte) (s : State), encode (.gfmuli b) = 0x2200#16 + b.setWidth 16 ∧ (s.err = 0 →
    (s.acc = 0 ∨ b = 0 → exec (.gfmuli b) s = .next (s.afterAcc 0)) ∧
    (s.acc ≠ 0 → b ≠ 0 → exec (.gfmuli b) s =
      .next (s.afterAcc (antilog (((log s.acc).toNat + (log b).toNat) % 255)))) ∧
    (b = 1 → exec (.gfmuli b) s = .next (s.afterAcc s.acc)) ∧
    (b = 2 → exec (.gfmuli b) s = .next (s.afterAcc (xtime s.acc))))

/-- `GFLOG` (R92): `E_DOM` for zero, otherwise `ACC` and the data byte are the log, the unique exponent 0..254 whose antilog
is the old `ACC`. -/
def Obligations.GflogTakesTheLog : Prop :=
  encode .gflog = 0x2300 ∧ ∀ s : State, s.err = 0 →
    (s.acc = 0 → exec .gflog s = .next (s.afterFault 6)) ∧
    (s.acc ≠ 0 → ∃ e : Byte, exec .gflog s = .next (s.afterAcc e) ∧ e = log s.acc ∧ e.toNat ≤ 254 ∧
      antilog e.toNat = s.acc ∧ ∀ f : Byte, f.toNat ≤ 254 → antilog f.toNat = s.acc → f = e)

/-- `GFEXP` (R93): `ACC` and the data byte are `EXP[ACC mod 255]`, never zero; after `GFLOG` it restores a nonzero `ACC`, and
`GFLOG` after it restores an `ACC` in 0..254 and turns 255 into 0. -/
def Obligations.GfexpTakesTheAntilog : Prop :=
  encode .gfexp = 0x2400 ∧ ∀ s : State, s.err = 0 →
    (∃ v : Byte, exec .gfexp s = .next (s.afterAcc v) ∧ v = antilog (s.acc.toNat % 255) ∧ v ≠ 0) ∧
    (s.acc = 255 → exec .gfexp s = .next (s.afterAcc 0x01)) ∧
    (s.acc ≠ 0 → ∃ t u, exec .gflog s = .next t ∧ exec .gfexp t = .next u ∧ u.acc = s.acc) ∧
    (∃ t u, exec .gfexp s = .next t ∧ exec .gflog t = .next u ∧ u.acc = if s.acc = 255 then 0 else s.acc)

/-! ## The polynomial commands -/

/-- `GENRD k` (R102): `E_PARAM` if `r` is not set or `k` is not below it, otherwise `ACC` and the data byte are `GEN[RLEN][k]`, a
log 0..254, whatever `DONE` is; the last one is `(RLEN (RLEN-1) / 2) mod 255`. -/
def Obligations.GenrdReadsTheGeneratorTerm : Prop :=
  ∀ (k : Byte) (s : State), encode (.genrd k) = 0x3000#16 + k.setWidth 16 ∧ (s.err = 0 →
    (s.rlen = 0 → exec (.genrd k) s = .next (s.afterFault 2)) ∧
    (s.rlen.toNat ≤ k.toNat → exec (.genrd k) s = .next (s.afterFault 2)) ∧
    (degreeHeld s.rlen.toNat → k.toNat < s.rlen.toNat →
      ∃ g : Byte, genTerm s.rlen.toNat k.toNat = some g ∧ g.toNat ≤ 254 ∧
        exec (.genrd k) s = .next (s.afterAcc g) ∧
        (k.toNat + 1 = s.rlen.toNat → g.toNat = (s.rlen.toNat * (s.rlen.toNat - 1) / 2) % 255)))

/-- `SHL` (R103, R100): `E_SEQ` if a result is standing, otherwise every entry of `W` moves down one index, 0 enters at index
254, and nothing else changes; 255 of them clear `W`. -/
def Obligations.ShlShiftsTheBuffer : Prop :=
  encode .shl = 0x3100 ∧ ∀ s : State, s.err = 0 →
    (s.done = true → exec .shl s = .next (s.afterFault 5)) ∧
    (s.done = false → s.w.wf = true →
      ∃ w : Memory, w.wf = true ∧ (∀ j, j < 254 → w.read j = s.w.read (j + 1)) ∧ w.read 254 = 0 ∧
        exec .shl s = .next { s with w := w, rsp := some (s.responseWord 0) }) ∧
    (s.done = false → s.w.wf = true → ∃ t, execTimes .shl 255 s = .next t ∧ ∀ j, t.w.read j = 0)

/-- `MACG` (R104): `E_SEQ`, then `E_PARAM` if `r` is not set; with `ACC = 0` nothing changes; otherwise `W[0]` takes `ACC` in and
`W[k+1]` takes `EXP[(GEN[RLEN][k] + LOG[ACC]) mod 255]` in, for `k` below `RLEN`, and the entries above stand; given twice it
restores `W`. -/
def Obligations.MacgAddsTheScaledGenerator : Prop :=
  encode .macg = 0x3200 ∧ ∀ s : State, s.err = 0 →
    (s.done = true → exec .macg s = .next (s.afterFault 5)) ∧
    (s.done = false → s.rlen = 0 → exec .macg s = .next (s.afterFault 2)) ∧
    (s.done = false → s.rlen ≠ 0 → s.acc = 0 → exec .macg s = .next (s.afterAnswer 0)) ∧
    (s.done = false → degreeHeld s.rlen.toNat → s.acc ≠ 0 → s.w.wf = true →
      ∃ w : Memory, w.wf = true ∧ w.read 0 = s.w.read 0 ^^^ s.acc ∧
        (∀ k, k < s.rlen.toNat → ∃ g, genTerm s.rlen.toNat k = some g ∧
          w.read (k + 1) = s.w.read (k + 1) ^^^ antilog ((g.toNat + (log s.acc).toNat) % 255)) ∧
        (∀ j, s.rlen.toNat < j → w.read j = s.w.read j) ∧
        exec .macg s = .next { s with w := w, rsp := some (s.responseWord 0) }) ∧
    (s.done = false → degreeHeld s.rlen.toNat → s.w.wf = true →
      ∃ t u, exec .macg s = .next t ∧ exec .macg t = .next u ∧ u.w = s.w)

/-- `STEP` (R105, R101): `E_SEQ`, then `E_PARAM` if `r` is not set, otherwise one `DivStep`: if the lead `W[0]` is nonzero the
`r` entries below it take `EXP[(GEN[r][k] + LOG[lead]) mod 255]` in, and then all of `W` shifts down. Where `ENC` completes,
`DLEN` times `STEP` leaves exactly what it leaves but for `DONE` (and the response word). -/
def Obligations.StepDividesOnce : Prop :=
  encode .step = 0x3300 ∧ ∀ s : State, s.err = 0 →
    (s.done = true → exec .step s = .next (s.afterFault 5)) ∧
    (s.done = false → s.rlen = 0 → exec .step s = .next (s.afterFault 2)) ∧
    (s.done = false → degreeHeld s.rlen.toNat → s.w.wf = true →
      ∃ w : Memory, w.wf = true ∧
        (∀ k, k < s.rlen.toNat → s.w.read 0 ≠ 0 → ∃ g, genTerm s.rlen.toNat k = some g ∧
          w.read k = s.w.read (k + 1) ^^^ antilog ((g.toNat + (log (s.w.read 0)).toNat) % 255)) ∧
        (∀ j, j < 254 → s.rlen.toNat ≤ j ∨ s.w.read 0 = 0 → w.read j = s.w.read (j + 1)) ∧
        w.read 254 = 0 ∧
        exec .step s = .next { s with w := w, rsp := some (s.responseWord 0) }) ∧
    (s.done = false → s.dlen ≠ 0 → degreeHeld s.rlen.toNat → s.dlen.toNat + s.rlen.toNat ≤ 255 →
      ∃ t u, exec .enc s = .next t ∧ execTimes .step s.dlen.toNat s = .next u ∧
        t = { u with done := true, rsp := t.rsp } ∧ u.done = false)

/-- `ENC` (R106): its four checks in order, each leaving `W` untouched, otherwise `DLEN` iterations of `DivStep` (R101, the
function that `STEP` runs once) and `DONE <- 1`; all-zero data gives an all-zero result. -/
def Obligations.EncRunsDlenIterations : Prop :=
  encode .enc = 0x3400 ∧ ∀ s : State, s.err = 0 →
    (s.done = true → exec .enc s = .next (s.afterFault 5)) ∧
    (s.done = false → s.dlen = 0 → exec .enc s = .next (s.afterFault 3)) ∧
    (s.done = false → s.dlen ≠ 0 → s.rlen = 0 → exec .enc s = .next (s.afterFault 2)) ∧
    (s.done = false → s.dlen ≠ 0 → s.rlen ≠ 0 → 255 < s.dlen.toNat + s.rlen.toNat →
      exec .enc s = .next (s.afterFault 2)) ∧
    (s.done = false → s.dlen ≠ 0 → degreeHeld s.rlen.toNat → s.dlen.toNat + s.rlen.toNat ≤ 255 →
      ∃ terms, genRow s.rlen.toNat = some terms ∧
        exec .enc s = .next { s with
          w := (Memory.divStep terms)^[s.dlen.toNat] s.w, done := true,
          rsp := some (0b01100000#8 ++ (0x00 : Byte)) } ∧
        ((∀ j, s.w.read j = 0) → s.w.wf = true → ∀ j, ((Memory.divStep terms)^[s.dlen.toNat] s.w).read j = 0))

/-- `STEP` from primitives (R110): `LDW 0`, `MACG`, `SHL` leave exactly the state `STEP` leaves, but `ACC` is the old `W[0]`. -/
def Obligations.LdwMacgShlIsStep : Prop :=
  ∀ s : State, s.Inv → s.err = 0 → s.done = false → s.rlen ≠ 0 →
    ∃ t₁ t₂ t₃ u, exec (.ldw 0) s = .next t₁ ∧ exec .macg t₁ = .next t₂ ∧ exec .shl t₂ = .next t₃ ∧
      exec .step s = .next u ∧ t₃ = { u with acc := s.w.read 0 } ∧ u.acc = s.acc

/-! ## The field and the tables -/

/-- The laws of the field product (R87). -/
def Obligations.FieldProductLaws : Prop :=
  (∀ a b : Byte, gfmul a b = gfmul b a) ∧
  (∀ a b c : Byte, gfmul a (gfmul b c) = gfmul (gfmul a b) c) ∧
  (∀ a : Byte, gfmul a 1 = a ∧ gfmul a 0 = 0) ∧
  (∀ a b c : Byte, gfmul a (b ^^^ c) = gfmul a b ^^^ gfmul a c) ∧
  (∀ a b : Byte, gfmul a b = 0 → a = 0 ∨ b = 0) ∧
  (∀ a : Byte, a ≠ 0 → ∀ b : Byte, gfmul a b = 1 ↔ b = antilog ((255 - (log a).toNat) % 255))

/-- The table product is the carry-less product reduced modulo x^8+x^4+x^3+x^2+1, on every pair of bytes, zero included (R88); so it
depends on no content of `LOG[0]` (R43). -/
def Obligations.TableProductIsCarrylessProduct : Prop :=
  ∀ a b : Byte, gfmul a b = carrylessMul a b

/-- What ties `LOG` and `EXP` to their definitions (R43, R44) and to each other (R47 (a), (b), (c)). -/
def Obligations.LogAndExpAreInverse : Prop :=
  antilog 0 = 0x01 ∧
  (∀ e, e < 254 → antilog (e + 1) = xtime (antilog e)) ∧
  xtime (antilog 254) = 0x01 ∧
  (∀ a : Byte, a ≠ 0 → (log a).toNat ≤ 254 ∧ antilog (log a).toNat = a) ∧
  (∀ e, e ≤ 254 → (log (antilog e)).toNat = e ∧ antilog e ≠ 0) ∧
  log 1 = 0 ∧ log 2 = 1 ∧ antilog 8 = 0x1D ∧ antilog 254 = 0x8E

/-- `GEN` (R45): a row of `r` entries, each 0..254, for every degree 7..68 and no other, and the row holds the logs of the
non-leading coefficients of the generator polynomial of R46. -/
def Obligations.GenHoldsTheGeneratorPolynomials : Prop :=
  (∀ r, degreeHeld r → genHoldsGenerator r ∧
    ∃ terms, genRow r = some terms ∧ terms.length = r ∧ ∀ g ∈ terms, g.toNat ≤ 254) ∧
  (∀ r, ¬ degreeHeld r → genRow r = none)

/-! ## What ENC computes -/

/-- From a loaded block `ENC` leaves the remainder of the division (R107, R108): with `q` the quotient,
`D(x) x^r + R(x) = q(x) (x^r + c_0 x^(r-1) + ... + c_(r-1))`, `R` being `W[0..r-1]` and `c_k = EXP[GEN[r][k]]`, and every entry from
`r` up is zero. Nothing is assumed of the generator table. -/
def Obligations.EncLeavesTheRemainder : Prop :=
  ∀ (s : State) (r : Nat) (data : List Byte), s.Loaded r data → blockFits r data →
    ∃ t terms q, exec .enc s = .next t ∧ genRow r = some terms ∧ q.length = data.length ∧
      polyMul q (1 :: termCoefficients terms) = data ++ t.result r ∧
      (∀ j, r ≤ j → t.w.read j = 0) ∧ t.done = true ∧
      t.acc = s.acc ∧ t.dlen = s.dlen ∧ t.rlen = s.rlen ∧ t.err = 0 ∧ t.pending = s.pending ∧ t.rsp = some 0x6000

/-- The remainder is unique (R108): quotient and remainder of a division by a monic polynomial are determined. -/
def Obligations.RemainderIsUnique : Prop :=
  ∀ coeffs data q q' R R' : List Byte, q.length = data.length → q'.length = data.length →
    R.length = coeffs.length → R'.length = coeffs.length →
    polyMul q (1 :: coeffs) = data ++ R → polyMul q' (1 :: coeffs) = data ++ R' → q = q' ∧ R = R'

/-- The `d + r` bytes are a codeword (R108): evaluated at `ALPHA^i` they give 0 for `i = 0..r-1`, granted the named property that
`GEN[r]` holds the logs of the coefficients of `g_r` (92_eei_decisions.md D31). -/
def Obligations.CodewordVanishesAtTheRoots : Prop :=
  ∀ (s : State) (r : Nat) (data : List Byte), s.Loaded r data → blockFits r data → genHoldsGenerator r →
    ∃ t, exec .enc s = .next t ∧ ∀ i, i < r → polyEval (data ++ t.result r) (antilog i) = 0

/-- The same result as a feedback shift register (R109). -/
def Obligations.EncIsTheFeedbackShiftRegister : Prop :=
  ∀ (s : State) (r : Nat) (data : List Byte), s.Loaded r data → blockFits r data →
    ∃ t terms, exec .enc s = .next t ∧ genRow r = some terms ∧ t.result r = lfsr (termCoefficients terms) data

/-- The result is linear over the field in the data, and leading zero codewords do not change it (R111): additivity, scaling
and the all-zero block for every block that fits, `d + r = 255` included; a leading zero where the longer block fits too. -/
def Obligations.EncIsLinearInTheData : Prop :=
  ∀ (r : Nat) (a : List Byte) (sa : State), sa.Loaded r a → blockFits r a →
    ∃ ta, exec .enc sa = .next ta ∧
      (∀ (b : List Byte) (sb ssum : State), b.length = a.length → sb.Loaded r b →
        ssum.Loaded r (List.zipWith (· ^^^ ·) a b) →
        ∃ tb tsum, exec .enc sb = .next tb ∧ exec .enc ssum = .next tsum ∧
          tsum.result r = List.zipWith (· ^^^ ·) (ta.result r) (tb.result r)) ∧
      (∀ (c : Byte) (sc : State), sc.Loaded r (a.map (gfmul c)) →
        ∃ tc, exec .enc sc = .next tc ∧ tc.result r = (ta.result r).map (gfmul c)) ∧
      ((∀ x ∈ a, x = 0) → ∀ y ∈ ta.result r, y = 0) ∧
      (∀ sz : State, sz.Loaded r (0 :: a) → blockFits r (0 :: a) →
        ∃ tz, exec .enc sz = .next tz ∧ tz.result r = ta.result r)

/-! ## Calls -/

/-- A call from any state, faulted or finished ones included (R143, R107, R108): `CLR`, `SETR r`, the data pushed, `ENC` leave a
finished block whose `RDRS 0`..`RDRS r-1` answer the remainder, byte 0 first, each with `STATUS = 0x60`. -/
def Obligations.CallFromAnyStateYieldsTheRemainder : Prop :=
  ∀ (s : State) (r : Byte) (data : List Byte) (rest : List HostInput), blockFits r.toNat data →
    s.pending = callInputs r data ++ rest →
    ∃ (t : State) (terms q : List Byte), Sys2Proof.core.run (data.length + 3) s = .next t ∧
      genRow r.toNat = some terms ∧ q.length = data.length ∧
      polyMul q (1 :: termCoefficients terms) = data ++ t.result r.toNat ∧
      t.pending = rest ∧ t.err = 0 ∧ t.done = true ∧ t.rlen.toNat = r.toNat ∧ t.dlen.toNat = data.length ∧
      t.rsp = some 0x6000 ∧
      ∀ j : Byte, j.toNat < r.toNat →
        exec (.rdrs j) t = .next { t with rsp := some (0x60#8 ++ (t.result r.toNat).getD j.toNat 0) }

/-- A run that begins with `CLR` depends on nothing before it (R150, R143: "no state survives CLR"): two states from which the
host gives the same words run alike. -/
def Obligations.NothingSurvivesClr : Prop :=
  ∀ (s s' : State) (rest : List HostInput) (n : Nat), s.pending = .command 0x0100 :: rest → s'.pending = s.pending →
    Sys2Proof.core.run (n + 1) s = Sys2Proof.core.run (n + 1) s'

/-! ## The configuration (R4) -/

/-- `exec` and `step`, of which the other statements speak, are the machine at the stated value of each parameter of R4. That they
stand at the default is the model's choice (log entry 6, DESIGN CHOICE); so is what counts as admissible, deduced from the bound
of R33 and the table shape of R45 (log entry 6, DEDUCED), which the stated configuration is. -/
def Obligations.ExecIsTheMachineAtTheStatedConfiguration : Prop :=
  (∀ (i : Instr) (s : State), exec i s = execWith Config.stated i s) ∧ (∀ s : State, step s = stepWith Config.stated s) ∧
  Config.stated.nmax = 255 ∧ Config.stated.gen = genTable ∧ Config.stated.Admissible

/-- In a block built with any admissible configuration, every step from a state that meets the invariants of R24 (a) to (d)
gives a next state, and that state meets them; the reset state does. Admissible, `NMAX` in 69..255 and a row of `r` entries
0..254 for each degree, is the model's (log entry 6, DEDUCED from R33, R45 and U16): U16 itself gives no lower bound. -/
def Obligations.EveryConfigurationKeepsTheInvariants : Prop :=
  ∀ cfg : Config, cfg.Admissible → State.reset.Inv cfg ∧
    ∀ s : State, s.Inv cfg → ∃ t, stepWith cfg s = .next t ∧ t.Inv cfg

/-- `NMAX`, at any admissible value (69..255: log entry 6, DEDUCED from R33, R45 and U16), is the bound of `PUSH` (R76), of the
index of `LDW` and `STW` (R77, R78) and of `d + r` in `ENC` (R106). -/
def Obligations.NmaxSetsTheBounds : Prop :=
  ∀ (cfg : Config) (s : State), cfg.Admissible → s.err = 0 → s.w.wf cfg = true →
    (∀ j : Byte, (cfg.nmax ≤ j.toNat → execWith cfg (.ldw j) s = .next (s.afterFault 2)) ∧
      (j.toNat < cfg.nmax → execWith cfg (.ldw j) s = .next (s.afterAcc (s.w.read j.toNat)))) ∧
    (s.done = false → ∀ b : Byte, (s.dlen.toNat = cfg.nmax → execWith cfg (.push b) s = .next (s.afterFault 4)) ∧
      (s.dlen.toNat < cfg.nmax → ∃ w : Memory, w.wf cfg = true ∧
        (∀ a, w.read a = if a = s.dlen.toNat then b else s.w.read a) ∧
        execWith cfg (.push b) s = .next { s with w := w, dlen := s.dlen + 1, rsp := some (s.responseWord 0) })) ∧
    (s.done = false → ∀ j : Byte, (cfg.nmax ≤ j.toNat → execWith cfg (.stw j) s = .next (s.afterFault 2)) ∧
      (j.toNat < cfg.nmax → ∃ w : Memory, w.wf cfg = true ∧
        (∀ a, w.read a = if a = j.toNat then s.acc else s.w.read a) ∧
        execWith cfg (.stw j) s = .next { s with w := w, rsp := some (s.responseWord 0) })) ∧
    (s.done = false → s.dlen ≠ 0 → degreeHeld s.rlen.toNat →
      (cfg.nmax < s.dlen.toNat + s.rlen.toNat → execWith cfg .enc s = .next (s.afterFault 2)) ∧
      (s.dlen.toNat + s.rlen.toNat ≤ cfg.nmax → ∃ terms, genRow s.rlen.toNat cfg = some terms ∧
        execWith cfg .enc s = .next { s with
          w := (Memory.divStep terms)^[s.dlen.toNat] s.w, done := true, rsp := some 0x6000 }))

/-- What `ENC` computes in a block built with any admissible configuration (the table shape of R45 and `NMAX` in 69..255 by R33
and U16: log entry 6, DEDUCED): the remainder of the division by the polynomial whose
coefficients the row's logs give (R107, R108); and, granted the named property of 92_eei_decisions.md D31 of that table, bytes
that vanish at `ALPHA^0 .. ALPHA^(r-1)`. -/
def Obligations.EncDividesByWhateverGenHolds : Prop :=
  ∀ (cfg : Config) (s : State) (r : Nat) (data : List Byte), cfg.Admissible → s.Loaded r data cfg → blockFits r data cfg →
    ∃ t terms q, execWith cfg .enc s = .next t ∧ genRow r cfg = some terms ∧ terms.length = r ∧ q.length = data.length ∧
      polyMul q (1 :: termCoefficients terms) = data ++ t.result r ∧ (∀ j, r ≤ j → t.w.read j = 0) ∧
      (genHoldsGenerator r cfg → ∀ i, i < r → polyEval (data ++ t.result r) (antilog i) = 0)
end

