-- ==== Sys2Proof/Laws/Config.lean ====
section
/-! SUPPORT. What holds of every admissible configuration (log entry 6): the rows of its generator table, and that they fit the
buffer (00_scope.md R4; 20_memory.md R33, R45). -/

namespace Sys2Proof

open Sys2Proof.Machine

theorem genTable_rows : genTable.map List.length = (List.range 62).map (· + Config.rmin) := by decide +kernel

theorem genTable_entries : (genTable.all fun row => row.all fun g => decide (g.toNat ≤ 254)) = true := by decide +kernel

/-- The stated configuration (00_scope.md R4) is admissible (log entry 6). -/
theorem Config.stated_admissible : Config.stated.Admissible where
  nmax_le := Nat.le_refl 255
  rmax_lt := by decide
  rows := genTable_rows
  entries row hr g hg := of_decide_eq_true (List.all_eq_true.1 (List.all_eq_true.1 genTable_entries row hr) g hg)

/-- The row the ROM holds for a degree has that many entries (20_memory.md R45). -/
theorem Config.Admissible.row {cfg : Config} (hc : cfg.Admissible) {r : Nat} (hr : degreeHeld r) :
    ∃ terms, genRow r cfg = some terms ∧ terms.length = r := by
  have h7 : 7 ≤ r := hr.1
  have h68 : r ≤ 68 := hr.2
  have hlen : (cfg.gen.map List.length)[r - 7]? = some r := by
    rw [hc.rows, List.getElem?_map, List.getElem?_range (by omega)]
    simp only [Option.map_some, Config.rmin_eq, Option.some.injEq]; omega
  obtain ⟨terms, h, hl⟩ := Option.map_eq_some_iff.1 (List.getElem?_map .. ▸ hlen)
  exact ⟨terms, by rw [genRow, if_pos hr.1]; exact h, hl⟩

/-- No row for any other degree. -/
theorem Config.Admissible.row_absent {cfg : Config} (hc : cfg.Admissible) {r : Nat} (hr : ¬ degreeHeld r) :
    genRow r cfg = none := by
  unfold genRow
  split
  · rename_i h
    rw [List.getElem?_eq_none]
    have hr' : ¬ r ≤ 68 := fun h' => hr ⟨h, h'⟩
    have hl : cfg.gen.length = 62 := by simpa using congrArg List.length hc.rows
    have h7 : Config.rmin = 7 := rfl
    omega
  · rfl

/-- A row has room in the buffer (20_memory.md R33: "RLEN <= 68 < NMAX"). -/
theorem Config.Admissible.row_length_lt {cfg : Config} (hc : cfg.Admissible) {r : Nat} {terms : List Byte}
    (h : genRow r cfg = some terms) : terms.length < cfg.nmax := by
  by_cases hr : degreeHeld r
  · obtain ⟨terms', h', hl⟩ := hc.row hr
    rw [h, Option.some.injEq] at h'
    subst h'
    exact hl ▸ lt_of_le_of_lt hr.2 hc.rmax_lt
  · rw [hc.row_absent hr] at h; cases h

end Sys2Proof
end

