-- ==== Sys2Proof/Laws/Decode.lean ====
section
/-! SUPPORT. The fields of a command word (30_encoding.md R50): they make the word up, and the encoder puts the opcode and the
low byte in them. -/

namespace Sys2Proof

/-- A word is its two fields. -/
theorem opField_append_immField (cmd : Word16) : opField cmd ++ immField cmd = cmd := by
  unfold opField immField
  rw [BitVec.extractLsb'_append_extractLsb'_eq_extractLsb' (by decide)]
  simp

@[simp] theorem opField_encode (i : Instr) : opField (encode i) = i.opcode := BitVec.extractLsb'_append_eq_left

@[simp] theorem immField_encode (i : Instr) : immField (encode i) = i.lowByte := BitVec.extractLsb'_append_eq_right

/-- A format-Z opcode is its command when the low byte is zero, and no command otherwise (30_encoding.md R52). -/
theorem decodeZ_ok {imm : Byte} {i k : Instr} : decodeZ imm i = .ok k ↔ imm = 0 ∧ i = k := by
  unfold decodeZ
  split
  · rename_i h
    rw [Except.ok.injEq]
    exact ⟨fun e => ⟨h, e⟩, fun e => e.2⟩
  · rename_i h
    exact ⟨fun e => (nomatch e), fun e => absurd e.1 h⟩

end Sys2Proof
end

