-- ==== Sys2Proof/Laws/State.lean ====
section
/-! SUPPORT. One lemma per field and named update of State, and what the STATUS view depends on (10_state.md R17). -/

namespace Sys2Proof.Machine

/-! `State.reset` (10_state.md R23). -/

@[simp] theorem State.reset_acc : State.reset.acc = 0 := rfl
@[simp] theorem State.reset_rlen : State.reset.rlen = 0 := rfl
@[simp] theorem State.reset_dlen : State.reset.dlen = 0 := rfl
@[simp] theorem State.reset_done : State.reset.done = false := rfl
@[simp] theorem State.reset_err : State.reset.err = 0 := rfl
@[simp] theorem State.reset_w : State.reset.w = [] := rfl
@[simp] theorem State.reset_pending : State.reset.pending = [] := rfl
@[simp] theorem State.reset_rsp : State.reset.rsp = none := rfl

/-! `State.cleared` (40_system.md R67). -/

@[simp] theorem State.cleared_acc (s : State) : s.cleared.acc = 0 := rfl
@[simp] theorem State.cleared_rlen (s : State) : s.cleared.rlen = 0 := rfl
@[simp] theorem State.cleared_dlen (s : State) : s.cleared.dlen = 0 := rfl
@[simp] theorem State.cleared_done (s : State) : s.cleared.done = false := rfl
@[simp] theorem State.cleared_err (s : State) : s.cleared.err = 0 := rfl
@[simp] theorem State.cleared_w (s : State) : s.cleared.w = [] := rfl
@[simp] theorem State.cleared_pending (s : State) : s.cleared.pending = s.pending := rfl
@[simp] theorem State.cleared_rsp (s : State) : s.cleared.rsp = none := rfl
theorem State.cleared_status (s : State) : s.cleared.status = 0 := by
  show State.reset.status = 0
  decide
theorem State.cleared_responseWord (s : State) : s.cleared.responseWord 0 = 0 := by
  show State.reset.responseWord 0 = 0
  decide

/-! `State.taken`. -/

@[simp] theorem State.taken_acc (s : State) (rest : List HostInput) : (s.taken rest).acc = s.acc := rfl
@[simp] theorem State.taken_rlen (s : State) (rest : List HostInput) : (s.taken rest).rlen = s.rlen := rfl
@[simp] theorem State.taken_dlen (s : State) (rest : List HostInput) : (s.taken rest).dlen = s.dlen := rfl
@[simp] theorem State.taken_done (s : State) (rest : List HostInput) : (s.taken rest).done = s.done := rfl
@[simp] theorem State.taken_err (s : State) (rest : List HostInput) : (s.taken rest).err = s.err := rfl
@[simp] theorem State.taken_w (s : State) (rest : List HostInput) : (s.taken rest).w = s.w := rfl
@[simp] theorem State.taken_pending (s : State) (rest : List HostInput) : (s.taken rest).pending = rest := rfl
@[simp] theorem State.taken_rsp (s : State) (rest : List HostInput) : (s.taken rest).rsp = s.rsp := rfl

/-! `State.afterAnswer`, `State.afterReject`. -/

@[simp] theorem State.afterAnswer_acc (s : State) (d : Byte) : (s.afterAnswer d).acc = s.acc := rfl
@[simp] theorem State.afterAnswer_rlen (s : State) (d : Byte) : (s.afterAnswer d).rlen = s.rlen := rfl
@[simp] theorem State.afterAnswer_dlen (s : State) (d : Byte) : (s.afterAnswer d).dlen = s.dlen := rfl
@[simp] theorem State.afterAnswer_done (s : State) (d : Byte) : (s.afterAnswer d).done = s.done := rfl
@[simp] theorem State.afterAnswer_err (s : State) (d : Byte) : (s.afterAnswer d).err = s.err := rfl
@[simp] theorem State.afterAnswer_w (s : State) (d : Byte) : (s.afterAnswer d).w = s.w := rfl
@[simp] theorem State.afterAnswer_pending (s : State) (d : Byte) : (s.afterAnswer d).pending = s.pending := rfl
@[simp] theorem State.afterAnswer_rsp (s : State) (d : Byte) : (s.afterAnswer d).rsp = some (s.responseWord d) := rfl

theorem State.afterReject_eq (s : State) : s.afterReject = s.afterAnswer 0 := rfl
@[simp] theorem State.afterReject_acc (s : State) : s.afterReject.acc = s.acc := rfl
@[simp] theorem State.afterReject_rlen (s : State) : s.afterReject.rlen = s.rlen := rfl
@[simp] theorem State.afterReject_dlen (s : State) : s.afterReject.dlen = s.dlen := rfl
@[simp] theorem State.afterReject_done (s : State) : s.afterReject.done = s.done := rfl
@[simp] theorem State.afterReject_err (s : State) : s.afterReject.err = s.err := rfl
@[simp] theorem State.afterReject_w (s : State) : s.afterReject.w = s.w := rfl
@[simp] theorem State.afterReject_pending (s : State) : s.afterReject.pending = s.pending := rfl
@[simp] theorem State.afterReject_rsp (s : State) : s.afterReject.rsp = some (s.responseWord 0) := rfl

/-! `State.afterAcc`. -/

@[simp] theorem State.afterAcc_acc (s : State) (t : Byte) : (s.afterAcc t).acc = t := rfl
@[simp] theorem State.afterAcc_rlen (s : State) (t : Byte) : (s.afterAcc t).rlen = s.rlen := rfl
@[simp] theorem State.afterAcc_dlen (s : State) (t : Byte) : (s.afterAcc t).dlen = s.dlen := rfl
@[simp] theorem State.afterAcc_done (s : State) (t : Byte) : (s.afterAcc t).done = s.done := rfl
@[simp] theorem State.afterAcc_err (s : State) (t : Byte) : (s.afterAcc t).err = s.err := rfl
@[simp] theorem State.afterAcc_w (s : State) (t : Byte) : (s.afterAcc t).w = s.w := rfl
@[simp] theorem State.afterAcc_pending (s : State) (t : Byte) : (s.afterAcc t).pending = s.pending := rfl
@[simp] theorem State.afterAcc_rsp (s : State) (t : Byte) : (s.afterAcc t).rsp = some (s.responseWord t) := rfl

/-! `State.afterFault`. -/

@[simp] theorem State.afterFault_acc (s : State) (c : BitVec 3) : (s.afterFault c).acc = s.acc := rfl
@[simp] theorem State.afterFault_rlen (s : State) (c : BitVec 3) : (s.afterFault c).rlen = s.rlen := rfl
@[simp] theorem State.afterFault_dlen (s : State) (c : BitVec 3) : (s.afterFault c).dlen = s.dlen := rfl
@[simp] theorem State.afterFault_done (s : State) (c : BitVec 3) : (s.afterFault c).done = s.done := rfl
@[simp] theorem State.afterFault_err (s : State) (c : BitVec 3) : (s.afterFault c).err = c := rfl
@[simp] theorem State.afterFault_w (s : State) (c : BitVec 3) : (s.afterFault c).w = s.w := rfl
@[simp] theorem State.afterFault_pending (s : State) (c : BitVec 3) : (s.afterFault c).pending = s.pending := rfl
@[simp] theorem State.afterFault_rsp (s : State) (c : BitVec 3) :
    (s.afterFault c).rsp = some (State.responseWord { s with err := c } 0) := rfl

/-! STATUS reads `ERR`, `DONE` and `RLEN` alone. -/

theorem State.status_congr {s t : State} (he : s.err = t.err) (hd : s.done = t.done) (hr : s.rlen = t.rlen) :
    s.status = t.status := by
  simp only [State.status, State.faultFlag, State.rsetFlag, he, hd, hr]

theorem State.responseWord_congr {s t : State} (he : s.err = t.err) (hd : s.done = t.done) (hr : s.rlen = t.rlen)
    (data : Byte) : s.responseWord data = t.responseWord data := by
  simp only [State.responseWord, State.status_congr he hd hr]

end Sys2Proof.Machine
end

