-- ==== Sys2Proof/Laws/Ops.lean ====
section
/-! SUPPORT. Everything each shared operation can do, said once: the ends of a command, the order of the checks, the
generator row (60_exceptions.md R122 to R125; 20_memory.md R45). -/

namespace Sys2Proof.Machine

@[simp] theorem State.answer_eq (s : State) (d : Byte) : s.answer d = .next (s.afterAnswer d) := rfl

@[simp] theorem State.answerAcc_eq (s : State) (t : Byte) : s.answerAcc t = .next (s.afterAcc t) := rfl

@[simp] theorem State.raise_eq (s : State) (c : FaultCode) : s.raise c = .next (s.afterFault c.code) := rfl

@[simp] theorem State.reject_eq (s : State) : s.reject = .next s.afterReject := rfl

theorem State.unlessFaulted_faulted {s : State} (h : s.err ≠ 0) (body : Result) :
    s.unlessFaulted body = .next s.afterReject := if_pos h

theorem State.unlessFaulted_running {s : State} (h : s.err = 0) (body : Result) : s.unlessFaulted body = body :=
  if_neg (not_not.2 h)

/-- A guarded command answers a next state in the faulted state by rejection, otherwise as its body does. -/
theorem State.unlessFaulted_next {s t : State} {body : Result} :
    s.unlessFaulted body = .next t ↔ (s.err ≠ 0 ∧ t = s.afterReject) ∨ (s.err = 0 ∧ body = .next t) := by
  by_cases h : s.err = 0
  · rw [State.unlessFaulted_running h]
    exact ⟨fun e => .inr ⟨h, e⟩, fun e => e.elim (fun e => absurd h e.1) (fun e => e.2)⟩
  · rw [State.unlessFaulted_faulted h, Host.Outcome.next.injEq]
    exact ⟨fun e => .inl ⟨h, e.symm⟩, fun e => e.elim (fun e => e.2.symm) (fun e => absurd e.1 h)⟩

@[simp] theorem State.check_true (s : State) (c : FaultCode) (body : Result) :
    s.check true c body = .next (s.afterFault c.code) := rfl

@[simp] theorem State.check_false (s : State) (c : FaultCode) (body : Result) : s.check false c body = body := rfl

/-- A check faults with its code where it fails, and otherwise answers as what follows it does. -/
theorem State.check_next {s t : State} {bad : Bool} {c : FaultCode} {body : Result} :
    s.check bad c body = .next t ↔ (bad = true ∧ t = s.afterFault c.code) ∨ (bad = false ∧ body = .next t) := by
  cases bad
  · simp
  · rw [State.check_true, Host.Outcome.next.injEq, @eq_comm _ t]
    simp

/-- An illegal word always answers a next state: rejected in the faulted state, `E_ILL` otherwise. -/
theorem State.illegal_eq (s : State) : s.illegal = .next (if s.err ≠ 0 then s.afterReject else s.afterFault 1) := by
  unfold State.illegal State.unlessFaulted
  split <;> rfl

theorem genRow_held {r : Nat} (hr : degreeHeld r) : ∃ terms, genRow r = some terms ∧ terms.length = r :=
  Config.stated_admissible.row hr

theorem genRow_absent {r : Nat} (hr : ¬ degreeHeld r) : genRow r = none := Config.stated_admissible.row_absent hr

theorem genRow_length_lt {r : Nat} {terms : List Byte} (h : genRow r = some terms) : terms.length < 255 :=
  Config.stated_admissible.row_length_lt h

/-- A command that reads the generator answers a next state only where the ROM holds the row, and then as its body does. -/
theorem State.withGenerator_next {s t : State} {cfg : Config} {body : List Byte → Result} :
    s.withGenerator cfg body = .next t ↔ ∃ terms, genRow s.rlen.toNat cfg = some terms ∧ body terms = .next t := by
  unfold State.withGenerator
  cases h : genRow s.rlen.toNat cfg <;> simp

theorem State.withGenerator_held {s : State} {cfg : Config} (hc : cfg.Admissible) (h : degreeHeld s.rlen.toNat)
    (body : List Byte → Result) :
    ∃ terms, genRow s.rlen.toNat cfg = some terms ∧ terms.length = s.rlen.toNat ∧ s.withGenerator cfg body = body terms := by
  obtain ⟨terms, ht, hl⟩ := hc.row h
  exact ⟨terms, ht, hl, by simp [State.withGenerator, ht]⟩

/-! One step (40_system.md R65). -/

theorem stepBy_waits {run : Instr → State → Result} {s : State} (h : s.pending = []) : stepBy run s = s.waits := by
  simp [stepBy, h]

theorem stepBy_reset {run : Instr → State → Result} {s : State} {rest : List HostInput} (h : s.pending = .reset :: rest) :
    stepBy run s = State.hardReset rest := by simp [stepBy, h]

theorem stepBy_command {run : Instr → State → Result} {s : State} {cmd : Word16} {rest : List HostInput}
    (h : s.pending = .command cmd :: rest) : stepBy run s = runWord cmd (s.taken rest) run := by simp [stepBy, h]

theorem step_waits {s : State} (h : s.pending = []) : step s = s.waits := stepBy_waits h

theorem step_reset {s : State} {rest : List HostInput} (h : s.pending = .reset :: rest) :
    step s = State.hardReset rest := stepBy_reset h

theorem step_command {s : State} {cmd : Word16} {rest : List HostInput} (h : s.pending = .command cmd :: rest) :
    step s = runWord cmd (s.taken rest) := stepBy_command h

/-- Everything one step can be, in a block whose commands execute by `run`: waiting, a reset, a legal command, an illegal
word. -/
theorem stepBy_cases (run : Instr → State → Result) (s : State) :
    (s.pending = [] ∧ stepBy run s = s.waits) ∨
    (∃ rest, s.pending = .reset :: rest ∧ stepBy run s = State.hardReset rest) ∨
    (∃ cmd rest i, s.pending = .command cmd :: rest ∧ decode cmd = .ok i ∧ stepBy run s = run i (s.taken rest)) ∨
    (∃ cmd rest e, s.pending = .command cmd :: rest ∧ decode cmd = .error e ∧ stepBy run s = (s.taken rest).illegal) := by
  rcases hp : s.pending with _ | ⟨_ | _, rest⟩
  · exact .inl ⟨rfl, stepBy_waits hp⟩
  · rename_i cmd
    rcases hd : decode cmd with e | i
    · exact .inr (.inr (.inr ⟨cmd, rest, e, rfl, hd, by rw [stepBy_command hp, runWord, hd]⟩))
    · exact .inr (.inr (.inl ⟨cmd, rest, i, rfl, hd, by rw [stepBy_command hp, runWord, hd]⟩))
  · exact .inr (.inl ⟨rest, rfl, stepBy_reset hp⟩)

theorem step_cases (s : State) :
    (s.pending = [] ∧ step s = s.waits) ∨
    (∃ rest, s.pending = .reset :: rest ∧ step s = State.hardReset rest) ∨
    (∃ cmd rest i, s.pending = .command cmd :: rest ∧ decode cmd = .ok i ∧ step s = exec i (s.taken rest)) ∨
    (∃ cmd rest e, s.pending = .command cmd :: rest ∧ decode cmd = .error e ∧ step s = (s.taken rest).illegal) :=
  stepBy_cases exec s

end Sys2Proof.Machine
end

