-- ==== Sys2Proof/Laws/Operands.lean ====
section
/-! SUPPORT. What each operand test says, in the numbers of the spec (30_encoding.md R53; 60_exceptions.md R122), and a
command's first failing or passing check. -/

namespace Sys2Proof.Machine

/-- With the stated `NMAX` the one index outside the buffer is 255 (20_memory.md R33). -/
theorem index_above_iff (j : Byte) : 255 - 1 < j.toNat ↔ j = 255 := by revert j; decide +kernel

theorem indexOutOfRange_stated (j : Byte) : indexOutOfRange j Config.stated = decide (j = 255) :=
  decide_eq_decide.2 (index_above_iff j)

theorem countOutOfRange_eq (r : Byte) : countOutOfRange r = decide (r.toNat < 7 ∨ 68 < r.toNat) := by
  simp only [countOutOfRange, Bool.decide_or]

theorem State.notBelowRlen_eq (s : State) (k : Byte) : s.notBelowRlen k = decide (s.rlen.toNat ≤ k.toNat) := rfl

theorem State.rlenUnset_eq (s : State) : s.rlenUnset = decide (s.rlen = 0) := rfl

theorem State.bufferFull_eq (s : State) (cfg : Config) : s.bufferFull cfg = decide (s.dlen.toNat = cfg.nmax) := rfl

theorem State.blockTooLong_eq (s : State) (cfg : Config) :
    s.blockTooLong cfg = decide (cfg.nmax < s.dlen.toNat + s.rlen.toNat) := rfl

/-- A held degree is set. -/
theorem State.rlen_ne_zero {s : State} (h : degreeHeld s.rlen.toNat) : s.rlen ≠ 0 := by
  intro h0
  rw [h0] at h
  exact absurd h.1 (by decide)

/-- A held degree is at most 68, so the row and the lead fit the buffer (20_memory.md R33). -/
theorem degreeHeld_bounds {r : Nat} (h : degreeHeld r) : 7 ≤ r ∧ r ≤ 68 := h

theorem State.check_pos {s : State} {bad : Bool} {c : FaultCode} {body : Result} (h : bad = true) :
    s.check bad c body = .next (s.afterFault c.code) := by rw [h]; rfl

theorem State.check_neg {s : State} {bad : Bool} {c : FaultCode} {body : Result} (h : bad = false) :
    s.check bad c body = body := by rw [h]; rfl

@[simp] theorem State.readReg_zero (s : State) : s.readReg 0 = some s.acc := rfl
@[simp] theorem State.readReg_one (s : State) : s.readReg 1 = some (s.rlen.setWidth 8) := rfl
@[simp] theorem State.readReg_two (s : State) : s.readReg 2 = some s.dlen := rfl
@[simp] theorem State.readReg_three (s : State) : s.readReg 3 = some s.status := rfl

/-- The reserved register numbers read nothing (10_state.md R18). -/
theorem State.readReg_reserved (s : State) {n : Byte} (h : 4 ≤ n.toNat) : s.readReg n = none := by
  unfold State.readReg
  split <;> first | omega | rfl

end Sys2Proof.Machine
end

