-- ==== Sys2Proof/Laws/Exec.lean ====
section
/-! SUPPORT. Everything `exec` can do, said once: its outcome from the table of checks (60_exceptions.md R122) and the effect
of the completed command. Later proofs cite `exec_eq` and unfold no meaning. -/

namespace Sys2Proof.Machine

/-- What a command that completes leaves, its checks passed; `none` where the ROM lacks the row it reads. -/
def effect (i : Instr) (s : State) (cfg : Config := Config.stated) : Option State :=
  match i with
  | .nop => some (s.afterAnswer 0)
  | .clr => some (s.cleared.afterAnswer 0)
  | .rdreg n => (s.readReg n).map s.afterAnswer
  | .setr r => some (State.afterAnswer { s with rlen := r.setWidth 7 } 0)
  | .push b => some (State.afterAnswer { s with w := s.w.write s.dlen.toNat b, dlen := s.dlen + 1 } 0)
  | .ldw j => some (s.afterAcc (s.w.read j.toNat))
  | .stw j => some (State.afterAnswer { s with w := s.w.write j.toNat s.acc } 0)
  | .rdrs j => some (s.afterAnswer (s.w.read j.toNat))
  | .gfldi b => some (s.afterAcc b)
  | .gfaddi b => some (s.afterAcc (gfadd s.acc b))
  | .gfmuli b => some (s.afterAcc (gfmul s.acc b))
  | .gflog => some (s.afterAcc (log s.acc))
  | .gfexp => some (s.afterAcc (antilog s.acc.toNat))
  | .genrd k => (genTerm s.rlen.toNat k.toNat cfg).map s.afterAcc
  | .shl => some (State.afterAnswer { s with w := s.w.shift } 0)
  | .macg => if s.acc = 0 then some (s.afterAnswer 0) else (genRow s.rlen.toNat cfg).map fun t => State.afterAnswer { s with w := s.w.addScaled t s.acc } 0
  | .step => (genRow s.rlen.toNat cfg).map fun t => State.afterAnswer { s with w := s.w.divStep t } 0
  | .enc => (genRow s.rlen.toNat cfg).map fun t => State.afterAnswer { s with w := s.w.divSteps t s.dlen.toNat, done := true } 0

/-- A completed command as an outcome. -/
def ofEffect : Option State → Result
  | some t => .next t
  | none => .fault .genAbsent

/-- The register read in the terms of the table of data bytes. -/
theorem State.readReg_eq (n : Byte) (s : State) : s.readReg n = if 4 ≤ n.toNat then none else some (completedData (.rdreg n) s s) := by
  by_cases h : 4 ≤ n.toNat
  · rw [if_pos h, State.readReg_reserved s h]
  · rw [if_neg h]
    have : n = 0 ∨ n = 1 ∨ n = 2 ∨ n = 3 := by
      have h4 : n.toNat < 4 := by omega
      clear h
      revert n; decide +kernel
    rcases this with rfl | rfl | rfl | rfl <;> rfl

/-- Everything a command can do (40_system.md R65): in the faulted state it executes or is rejected, otherwise it raises the
code of its first failing check or completes. -/
theorem execWith_eq (cfg : Config) (i : Instr) (s : State) : execWith cfg i s =
    if s.err ≠ 0 then (if runsWhenFaulted i then ofEffect (effect i s cfg) else .next s.afterReject)
    else match failingCode i s cfg with
      | some c => .next (s.afterFault c)
      | none => ofEffect (effect i s cfg) := by
  by_cases he : s.err = 0
  · rw [if_neg (not_not.2 he)]
    cases i with
    | nop => rfl
    | clr => rfl
    | rdreg n =>
      simp only [execWith, execRdreg, failingCode, effect, State.readReg_eq]
      by_cases h : 4 ≤ n.toNat
      · simp [h, State.illegal_eq, he]
      · simp [h, ofEffect]
    | setr r =>
      simp only [execWith, execSetr, State.unlessFaulted_running he, failingCode, effect, countOutOfRange_eq]
      by_cases h : s.done = true
      · rw [State.check_pos h, if_pos h]; rfl
      · rw [State.check_neg (by simpa using h), if_neg h]
        by_cases h' : r.toNat < 7 ∨ 68 < r.toNat
        · rw [State.check_pos (decide_eq_true h'), if_pos h']; rfl
        · rw [State.check_neg (decide_eq_false h'), if_neg h']; rfl
    | push b =>
      simp only [execWith, execPush, State.unlessFaulted_running he, failingCode, effect, State.bufferFull_eq]
      by_cases h : s.done = true
      · rw [State.check_pos h, if_pos h]; rfl
      · rw [State.check_neg (by simpa using h), if_neg h]
        by_cases h' : s.dlen.toNat = cfg.nmax
        · rw [State.check_pos (decide_eq_true h'), if_pos h']; rfl
        · rw [State.check_neg (decide_eq_false h'), if_neg h']; rfl
    | ldw j =>
      simp only [execWith, execLdw, State.unlessFaulted_running he, failingCode, effect, indexOutOfRange]
      by_cases h' : cfg.nmax - 1 < j.toNat
      · rw [State.check_pos (decide_eq_true h'), if_pos h']; rfl
      · rw [State.check_neg (decide_eq_false h'), if_neg h']; rfl
    | stw j =>
      simp only [execWith, execStw, State.unlessFaulted_running he, failingCode, effect, indexOutOfRange]
      by_cases h : s.done = true
      · rw [State.check_pos h, if_pos h]; rfl
      · rw [State.check_neg (by simpa using h), if_neg h]
        by_cases h' : cfg.nmax - 1 < j.toNat
        · rw [State.check_pos (decide_eq_true h'), if_pos h']; rfl
        · rw [State.check_neg (decide_eq_false h'), if_neg h']; rfl
    | rdrs j =>
      simp only [execWith, execRdrs, State.unlessFaulted_running he, failingCode, effect, State.notBelowRlen_eq]
      by_cases h : (!s.done) = true
      · rw [State.check_pos h, if_pos h]; rfl
      · rw [State.check_neg (by simpa using h), if_neg h]
        by_cases h' : s.rlen.toNat ≤ j.toNat
        · rw [State.check_pos (decide_eq_true h'), if_pos h']; rfl
        · rw [State.check_neg (decide_eq_false h'), if_neg h']; rfl
    | gfldi b => simp only [execWith, execGfldi, State.unlessFaulted_running he]; rfl
    | gfaddi b => simp only [execWith, execGfaddi, State.unlessFaulted_running he]; rfl
    | gfmuli b => simp only [execWith, execGfmuli, State.unlessFaulted_running he]; rfl
    | gfexp => simp only [execWith, execGfexp, State.unlessFaulted_running he]; rfl
    | gflog =>
      simp only [execWith, execGflog, State.unlessFaulted_running he, failingCode, effect]
      by_cases h' : s.acc = 0
      · rw [State.check_pos (decide_eq_true h'), if_pos h']; rfl
      · rw [State.check_neg (decide_eq_false h'), if_neg h']; rfl
    | genrd k =>
      simp only [execWith, execGenrd, State.unlessFaulted_running he, failingCode, effect, State.rlenUnset_eq, State.notBelowRlen_eq]
      by_cases h : s.rlen = 0
      · rw [State.check_pos (decide_eq_true h), if_pos h]; rfl
      · rw [State.check_neg (decide_eq_false h), if_neg h]
        by_cases h' : s.rlen.toNat ≤ k.toNat
        · rw [State.check_pos (decide_eq_true h'), if_pos h']; rfl
        · rw [State.check_neg (decide_eq_false h'), if_neg h']
          cases genTerm s.rlen.toNat k.toNat cfg <;> rfl
    | shl =>
      simp only [execWith, execShl, State.unlessFaulted_running he, failingCode, effect]
      by_cases h : s.done = true
      · rw [State.check_pos h, if_pos h]; rfl
      · rw [State.check_neg (by simpa using h), if_neg h]; rfl
    | macg =>
      simp only [execWith, execMacg, State.unlessFaulted_running he, failingCode, effect, State.rlenUnset_eq]
      by_cases h : s.done = true
      · rw [State.check_pos h, if_pos h]; rfl
      · rw [State.check_neg (by simpa using h), if_neg h]
        by_cases h' : s.rlen = 0
        · rw [State.check_pos (decide_eq_true h'), if_pos h']; rfl
        · rw [State.check_neg (decide_eq_false h'), if_neg h']
          by_cases ha : s.acc = 0
          · simp only [if_pos ha]; rfl
          · simp only [if_neg ha, State.withGenerator]; cases genRow s.rlen.toNat cfg <;> rfl
    | step =>
      simp only [execWith, execStep, State.unlessFaulted_running he, failingCode, effect, State.rlenUnset_eq]
      by_cases h : s.done = true
      · rw [State.check_pos h, if_pos h]; rfl
      · rw [State.check_neg (by simpa using h), if_neg h]
        by_cases h' : s.rlen = 0
        · rw [State.check_pos (decide_eq_true h'), if_pos h']; rfl
        · rw [State.check_neg (decide_eq_false h'), if_neg h']
          simp only [State.withGenerator]; cases genRow s.rlen.toNat cfg <;> rfl
    | enc =>
      simp only [execWith, execEnc, State.unlessFaulted_running he, failingCode, effect, State.rlenUnset_eq, State.blockTooLong_eq]
      by_cases h : s.done = true
      · rw [State.check_pos h, if_pos h]; rfl
      · rw [State.check_neg (by simpa using h), if_neg h]
        by_cases hl : s.dlen = 0
        · rw [State.check_pos (decide_eq_true hl), if_pos hl]; rfl
        · rw [State.check_neg (decide_eq_false hl), if_neg hl]
          by_cases h' : s.rlen = 0
          · rw [State.check_pos (decide_eq_true h'), if_pos h']; rfl
          · rw [State.check_neg (decide_eq_false h'), if_neg h']
            by_cases hb : cfg.nmax < s.dlen.toNat + s.rlen.toNat
            · rw [State.check_pos (decide_eq_true hb), if_pos hb]; rfl
            · rw [State.check_neg (decide_eq_false hb), if_neg hb]
              simp only [State.withGenerator]; cases genRow s.rlen.toNat cfg <;> rfl
  · rw [if_pos he]
    cases i with
    | nop => rfl
    | clr => rfl
    | rdreg n =>
      simp only [execWith, execRdreg, effect, State.readReg_eq, runsWhenFaulted]
      by_cases h : 4 ≤ n.toNat
      · simp [h, State.illegal_eq, show ¬ n.toNat ≤ 3 by omega]; intro h; exact absurd h he
      · simp [h, ofEffect, show n.toNat ≤ 3 by omega]
    | _ => exact State.unlessFaulted_faulted he _

/-- `exec` is the machine at the stated configuration. -/
theorem exec_eq_execWith (i : Instr) (s : State) : exec i s = execWith Config.stated i s := by cases i <;> rfl

theorem exec_eq (i : Instr) (s : State) : exec i s =
    if s.err ≠ 0 then (if runsWhenFaulted i then ofEffect (effect i s) else .next s.afterReject)
    else match failingCode i s with
      | some c => .next (s.afterFault c)
      | none => ofEffect (effect i s) := by rw [exec_eq_execWith, execWith_eq]

/-- The codes a check gives are those of the table of 60_exceptions.md R121. -/
theorem failingCode_bounds {cfg : Config} {i : Instr} {s : State} {c : BitVec 3} (h : failingCode i s cfg = some c) : c ≠ 0 ∧ c.toNat ≤ 6 := by
  revert h
  cases i <;> simp only [failingCode] <;> (try split_ifs) <;> (try simp) <;> intro h <;> subst h <;> decide

theorem ofEffect_next {o : Option State} {t : State} (h : ofEffect o = .next t) : o = some t := by
  cases o with
  | none => simp [ofEffect] at h
  | some u => simpa [ofEffect] using h

/-- The inversion of a command that answers next: it was rejected, it faulted, or it completed with its effect. -/
theorem execWith_next {cfg : Config} {i : Instr} {s t : State} (h : execWith cfg i s = .next t) :
    (s.err ≠ 0 ∧ runsWhenFaulted i = false ∧ t = s.afterReject) ∨
    (∃ c, s.err = 0 ∧ failingCode i s cfg = some c ∧ t = s.afterFault c) ∨
    (((s.err ≠ 0 ∧ runsWhenFaulted i = true) ∨ (s.err = 0 ∧ failingCode i s cfg = none)) ∧ effect i s cfg = some t) := by
  rw [execWith_eq] at h
  split at h
  · split at h
    · exact .inr (.inr ⟨.inl ⟨‹_›, ‹_›⟩, ofEffect_next h⟩)
    · exact .inl ⟨‹_›, by simpa using ‹¬ runsWhenFaulted i = true›, by simpa using h.symm⟩
  · rename_i he
    split at h
    · exact .inr (.inl ⟨_, not_not.1 he, ‹_›, by simpa using h.symm⟩)
    · exact .inr (.inr ⟨.inr ⟨not_not.1 he, ‹_›⟩, ofEffect_next h⟩)

theorem exec_next {i : Instr} {s t : State} (h : exec i s = .next t) :
    (s.err ≠ 0 ∧ runsWhenFaulted i = false ∧ t = s.afterReject) ∨
    (∃ c, s.err = 0 ∧ failingCode i s = some c ∧ t = s.afterFault c) ∨
    (((s.err ≠ 0 ∧ runsWhenFaulted i = true) ∨ (s.err = 0 ∧ failingCode i s = none)) ∧ effect i s = some t) :=
  execWith_next (exec_eq_execWith i s ▸ h)

/-- With the stated `NMAX` the index check of `LDW` and `STW` is the table's, `j = 255` (60_exceptions.md R122). -/
theorem failingCode_ldw (j : Byte) (s : State) : failingCode (.ldw j) s = if j = 255 then some 2 else none :=
  if_congr (index_above_iff j) rfl rfl

theorem failingCode_stw (j : Byte) (s : State) :
    failingCode (.stw j) s = if s.done then some 5 else if j = 255 then some 2 else none :=
  if_congr Iff.rfl rfl (if_congr (index_above_iff j) rfl rfl)

/-- What a completed command leaves of every field. -/
theorem effect_frame {cfg : Config} {i : Instr} {s t : State} (h : effect i s cfg = some t) :
    (writesAcc i = false → t.acc = s.acc) ∧ t.pending = s.pending ∧ (i ≠ .clr → t.err = s.err) ∧
    (writesBuffer i = false → t.w = s.w) ∧
    (t.rlen = s.rlen ∨ (i = .clr ∧ t.rlen = 0) ∨ ∃ r, i = .setr r ∧ t.rlen = r.setWidth 7) ∧
    (t.dlen = s.dlen ∨ (i = .clr ∧ t.dlen = 0) ∨ ∃ b, i = .push b ∧ t.dlen = s.dlen + 1) ∧
    (t.done = s.done ∨ (i = .clr ∧ t.done = false) ∨ (i = .enc ∧ t.done = true)) ∧
    (i = .clr → t = s.cleared.afterAnswer 0) ∧ t.rsp = some (t.status ++ completedData i s t) := by
  cases i <;> simp only [effect, Option.map_eq_some_iff, Option.some.injEq] at h
  case macg =>
    split at h
    · simp only [Option.some.injEq] at h; subst h; simp [writesAcc, writesBuffer, completedData]; rfl
    · simp only [Option.map_eq_some_iff] at h; obtain ⟨a, -, h⟩ := h; subst h
      simp [writesAcc, writesBuffer, completedData]; rfl
  case rdreg n =>
    rw [State.readReg_eq] at h
    split at h
    · simp at h
    · simp only [Option.some.injEq, exists_eq_left'] at h; subst h; simp [writesAcc, writesBuffer]; rfl
  case genrd => obtain ⟨a, -, h⟩ := h; subst h; simp [writesAcc, writesBuffer, completedData]; rfl
  case step => obtain ⟨a, -, h⟩ := h; subst h; simp [writesAcc, writesBuffer, completedData]; rfl
  case enc => obtain ⟨a, -, h⟩ := h; subst h; simp [writesAcc, writesBuffer, completedData]; rfl
  all_goals subst h
  all_goals simp [writesAcc, writesBuffer, completedData]
  all_goals first | done | rfl

end Sys2Proof.Machine
end

