-- ==== Sys2Proof/Laws/Memory.lean ====
section
/-! SUPPORT. The laws of the work buffer: what a read gives after each operation, that each keeps the canonical form, and
that a canonical buffer is determined by its reads (10_state.md R20; 20_memory.md R37; 43_poly.md R100, R101). -/

namespace Sys2Proof.Machine

-- The laws hold of a buffer of any size.
variable {cfg : Config}

/-- Every listed index is above `j`. -/
abbrev Memory.above (j : Nat) (m : Memory) : Prop := m.all (fun c => decide (j < c.1)) = true

@[simp] theorem Memory.read_nil (j : Nat) : Memory.read [] j = 0 := rfl

theorem Memory.read_listed (a : Nat) (v : Byte) (m : Memory) (j : Nat) :
    Memory.read ((a, v) :: m) j = if a = j then v else m.read j := rfl

theorem Memory.above_mono {j k : Nat} (h : j ≤ k) {m : Memory} (hm : Memory.above k m) : Memory.above j m := by
  simp only [Memory.above, List.all_eq_true, decide_eq_true_eq] at hm ⊢
  exact fun c hc => lt_of_le_of_lt h (hm c hc)

theorem Memory.read_above {j : Nat} {m : Memory} (h : Memory.above j m) : m.read j = 0 := by
  induction m with
  | nil => rfl
  | cons c m ih =>
    obtain ⟨a, v⟩ := c
    simp only [Memory.above, List.all_cons, Bool.and_eq_true, decide_eq_true_eq] at h
    rw [Memory.read_listed, if_neg (by omega), ih h.2]

theorem Memory.wf_cons_iff (a : Nat) (v : Byte) (m : Memory) :
    Memory.wf ((a, v) :: m) cfg = true ↔ a < cfg.nmax ∧ v ≠ 0 ∧ Memory.above a m ∧ m.wf cfg = true := by
  simp only [Memory.wf, Memory.above, Bool.and_eq_true, decide_eq_true_eq, and_assoc]
  exact Iff.rfl

theorem Memory.read_cons (j : Nat) (v : Byte) (m : Memory) (h : Memory.above j m) (k : Nat) :
    (Memory.cons j v m).read k = if k = j then v else m.read k := by
  unfold Memory.cons
  split
  · split
    · subst k; rw [Memory.read_above h]; simp_all [Memory.unlisted]
    · rfl
  · rw [Memory.read_listed]; simp [eq_comm]

theorem Memory.above_cons {i j : Nat} (v : Byte) {m : Memory} (hij : i < j) (h : Memory.above i m) :
    Memory.above i (Memory.cons j v m) := by
  unfold Memory.cons
  split
  · exact h
  · simp only [Memory.above, List.all_cons, Bool.and_eq_true, decide_eq_true_eq]; exact ⟨hij, h⟩

theorem Memory.wf_cons {j : Nat} (v : Byte) {m : Memory} (hj : j < cfg.nmax) (ha : Memory.above j m)
    (h : m.wf cfg = true) : (Memory.cons j v m).wf cfg = true := by
  unfold Memory.cons
  split
  · exact h
  · rw [Memory.wf_cons_iff]; exact ⟨hj, by simpa [Memory.unlisted] using ‹¬_›, ha, h⟩

theorem Memory.above_write {i j : Nat} (v : Byte) {m : Memory} (hij : i < j) (h : Memory.above i m) :
    Memory.above i (m.write j v) := by
  induction m with
  | nil => exact Memory.above_cons v hij h
  | cons c m ih =>
    obtain ⟨a, x⟩ := c
    have h' := h
    simp only [Memory.above, List.all_cons, Bool.and_eq_true, decide_eq_true_eq] at h'
    unfold Memory.write
    split
    · exact Memory.above_cons v hij h
    · split
      · exact Memory.above_cons v hij h'.2
      · simp only [Memory.above, List.all_cons, Bool.and_eq_true, decide_eq_true_eq]
        exact ⟨h'.1, ih h'.2⟩

/-- A read after a write (20_memory.md R37): the byte written at that index, the old byte at every other. -/
theorem Memory.read_write {m : Memory} (h : m.wf cfg = true) (j : Nat) (v : Byte) (k : Nat) :
    (m.write j v).read k = if k = j then v else m.read k := by
  induction m with
  | nil => exact Memory.read_cons j v [] rfl k
  | cons c m ih =>
    obtain ⟨a, x⟩ := c
    obtain ⟨-, -, ha, hm⟩ := (Memory.wf_cons_iff a x m).1 h
    unfold Memory.write
    split
    · have hj : Memory.above j ((a, x) :: m) := by
        simp only [Memory.above, List.all_cons, Bool.and_eq_true, decide_eq_true_eq]
        exact ⟨‹_›, Memory.above_mono (by omega) ha⟩
      exact Memory.read_cons j v _ hj k
    · split
      · subst j
        rw [Memory.read_cons a v m ha, Memory.read_listed]
        by_cases hk : k = a
        · simp [hk]
        · simp [hk, Ne.symm hk]
      · rw [Memory.read_listed, ih hm, Memory.read_listed]
        by_cases hk : a = k
        · subst k; simp [show a ≠ j by omega]
        · simp [hk]

/-- A write inside the buffer keeps the canonical form. -/
theorem Memory.wf_write {m : Memory} (h : m.wf cfg = true) {j : Nat} (hj : j < cfg.nmax) (v : Byte) :
    (m.write j v).wf cfg = true := by
  induction m with
  | nil => exact Memory.wf_cons v hj rfl h
  | cons c m ih =>
    obtain ⟨a, x⟩ := c
    obtain ⟨han, hx, ha, hm⟩ := (Memory.wf_cons_iff a x m).1 h
    unfold Memory.write
    split
    · refine Memory.wf_cons v hj ?_ h
      simp only [Memory.above, List.all_cons, Bool.and_eq_true, decide_eq_true_eq]
      exact ⟨‹_›, Memory.above_mono (by omega) ha⟩
    · split
      · subst j; exact Memory.wf_cons v hj ha hm
      · rw [Memory.wf_cons_iff]
        exact ⟨han, hx, Memory.above_write v (by omega) ha, ih hm⟩

/-- No entry stands outside `0..NMAX-1` (10_state.md R20). -/
theorem Memory.read_outside {m : Memory} (h : m.wf cfg = true) {j : Nat} (hj : cfg.nmax ≤ j) : m.read j = 0 := by
  induction m with
  | nil => rfl
  | cons c m ih =>
    obtain ⟨a, x⟩ := c
    obtain ⟨han, -, -, hm⟩ := (Memory.wf_cons_iff a x m).1 h
    rw [Memory.read_listed, if_neg (by omega), ih hm]

theorem Memory.above_shift {a : Nat} {m : Memory} (h : Memory.above (a + 1) m) : Memory.above a m.shift := by
  induction m with
  | nil => rfl
  | cons c m ih =>
    obtain ⟨b, x⟩ := c
    simp only [Memory.above, List.all_cons, Bool.and_eq_true, decide_eq_true_eq] at h
    cases b with
    | zero => omega
    | succ b =>
      simp only [Memory.shift, Memory.above, List.all_cons, Bool.and_eq_true, decide_eq_true_eq]
      exact ⟨by omega, ih h.2⟩

/-- `ShiftW` moves every entry one index down (43_poly.md R100). -/
theorem Memory.read_shift (m : Memory) (j : Nat) : m.shift.read j = m.read (j + 1) := by
  induction m with
  | nil => rfl
  | cons c m ih =>
    obtain ⟨b, x⟩ := c
    cases b with
    | zero => rw [Memory.shift, Memory.read_listed, if_neg (by omega), ih]
    | succ b => rw [Memory.shift, Memory.read_listed, Memory.read_listed, ih]; simp

theorem Memory.wf_shift {m : Memory} (h : m.wf cfg = true) : m.shift.wf cfg = true := by
  induction m with
  | nil => rfl
  | cons c m ih =>
    obtain ⟨b, x⟩ := c
    obtain ⟨hb, hx, ha, hm⟩ := (Memory.wf_cons_iff b x m).1 h
    cases b with
    | zero => exact ih hm
    | succ b => exact (Memory.wf_cons_iff _ _ _).2 ⟨by omega, hx, Memory.above_shift ha, ih hm⟩

/-- What the update loop adds to `W[j]` when it starts at term number `k` (43_poly.md R101). -/
def Memory.added (e : Byte) (k : Nat) (terms : List Byte) (j : Nat) : Byte :=
  if k < j then
    match terms[j - (k + 1)]? with
    | some term => scaledTerm term e
    | none => 0
  else 0

theorem Memory.wf_addTerms (e : Byte) : ∀ (terms : List Byte) (k : Nat) (m : Memory), m.wf cfg = true →
    k + terms.length < cfg.nmax → (m.addTerms e k terms).wf cfg = true
  | [], _, _, h, _ => h
  | term :: terms, k, m, h, hk => by
    rw [List.length_cons] at hk
    exact Memory.wf_addTerms e terms (k + 1) _ (Memory.wf_write h (by omega) _) (by omega)

/-- The update loop, entry by entry (43_poly.md R101, R104). -/
theorem Memory.read_addTerms (e : Byte) : ∀ (terms : List Byte) (k : Nat) (m : Memory), m.wf cfg = true →
    k + terms.length < cfg.nmax → ∀ j, (m.addTerms e k terms).read j = m.read j ^^^ Memory.added e k terms j
  | [], k, _, _, _, j => by simp [Memory.addTerms, Memory.added]
  | term :: terms, k, m, h, hk, j => by
    rw [List.length_cons] at hk
    rw [Memory.addTerms, Memory.read_addTerms e terms (k + 1) _ (Memory.wf_write h (by omega) _) (by omega) j,
      Memory.read_write h]
    by_cases hj : j = k + 1
    · subst j; simp [Memory.added, gfadd]
    · rw [if_neg hj]
      congr 1
      by_cases hlt : k + 1 < j
      · obtain ⟨d, rfl⟩ : ∃ d, j = k + 1 + (d + 1) := ⟨j - (k + 2), by omega⟩
        simp only [Memory.added, hlt, if_true, show k < k + 1 + (d + 1) by omega]
        rw [show k + 1 + (d + 1) - (k + 1 + 1) = d by omega, show k + 1 + (d + 1) - (k + 1) = d + 1 by omega,
          List.getElem?_cons_succ]
      · simp [Memory.added, hlt, show ¬ k < j by omega]

theorem Memory.wf_divStep {terms : List Byte} {m : Memory} (h : m.wf cfg = true) (hl : terms.length < cfg.nmax) :
    (m.divStep terms).wf cfg = true := by
  unfold Memory.divStep
  split
  · exact Memory.wf_shift h
  · exact Memory.wf_shift (Memory.wf_addTerms _ _ _ _ h (by omega))

/-- One division iteration, entry by entry (43_poly.md R101). -/
theorem Memory.read_divStep {terms : List Byte} {m : Memory} (h : m.wf cfg = true) (hl : terms.length < cfg.nmax)
    (j : Nat) : (m.divStep terms).read j =
      m.read (j + 1) ^^^ (if m.read 0 = 0 then 0 else Memory.added (log (m.read 0)) 0 terms (j + 1)) := by
  unfold Memory.divStep
  split
  · rw [Memory.read_shift]; simp
  · rw [Memory.read_shift, Memory.read_addTerms _ _ _ _ h (by omega)]

theorem Memory.wf_divSteps {terms : List Byte} (hl : terms.length < cfg.nmax) :
    ∀ (n : Nat) (m : Memory), m.wf cfg = true → (m.divSteps terms n).wf cfg = true
  | 0, _, h => h
  | n + 1, _, h => Memory.wf_divSteps hl n _ (Memory.wf_divStep h hl)

theorem Memory.wf_addScaled {terms : List Byte} {a : Byte} {m : Memory} (h : m.wf cfg = true)
    (hl : terms.length < cfg.nmax) : (m.addScaled terms a).wf cfg = true :=
  Memory.wf_addTerms _ _ _ _ (Memory.wf_write h (by omega) _) (by omega)

/-- The scaled generator added in, entry by entry (43_poly.md R104). -/
theorem Memory.read_addScaled {terms : List Byte} {a : Byte} {m : Memory} (h : m.wf cfg = true)
    (hl : terms.length < cfg.nmax) (j : Nat) : (m.addScaled terms a).read j =
      m.read j ^^^ (if j = 0 then a else Memory.added (log a) 0 terms j) := by
  unfold Memory.addScaled
  rw [Memory.read_addTerms _ _ _ _ (Memory.wf_write h (by omega) _) (by omega), Memory.read_write h]
  by_cases hj : j = 0
  · subst j; simp [Memory.added, gfadd]
  · simp [hj]

/-- A canonical buffer is determined by its reads: equal buffers are equal data. -/
theorem Memory.ext_of_read : ∀ {m n : Memory}, m.wf cfg = true → n.wf cfg = true → (∀ j, m.read j = n.read j) → m = n
  | [], [], _, _, _ => rfl
  | [], (b, y) :: n, _, hn, h => by
    obtain ⟨-, hy, -, -⟩ := (Memory.wf_cons_iff b y n).1 hn
    have := h b
    simp [Memory.read_listed] at this
    exact absurd this.symm hy
  | (a, x) :: m, [], hm, _, h => by
    obtain ⟨-, hx, -, -⟩ := (Memory.wf_cons_iff a x m).1 hm
    have := h a
    simp [Memory.read_listed] at this
    exact absurd this hx
  | (a, x) :: m, (b, y) :: n, hm, hn, h => by
    obtain ⟨-, hx, ha, hm'⟩ := (Memory.wf_cons_iff a x m).1 hm
    obtain ⟨-, hy, hb, hn'⟩ := (Memory.wf_cons_iff b y n).1 hn
    have hab : a = b := by
      rcases Nat.lt_trichotomy a b with hlt | heq | hgt
      · have := h a
        rw [Memory.read_listed, if_pos rfl, Memory.read_listed, if_neg (by omega),
          Memory.read_above (Memory.above_mono (by omega) hb)] at this
        exact absurd this hx
      · exact heq
      · have := h b
        rw [Memory.read_listed, if_neg (by omega), Memory.read_listed, if_pos rfl,
          Memory.read_above (Memory.above_mono (by omega) ha)] at this
        exact absurd this.symm hy
    subst hab
    have hxy : x = y := by simpa [Memory.read_listed] using h a
    have hmn : m = n := Memory.ext_of_read hm' hn' fun j => by
      by_cases hj : a = j
      · subst j; rw [Memory.read_above ha, Memory.read_above hb]
      · simpa [Memory.read_listed, hj] using h j
    rw [hxy, hmn]

end Sys2Proof.Machine
end

