-- ==== Sys2Proof/Laws/PerInstr.lean ====
section
/-! SUPPORT. Facts about every command as syntax, one lemma per constructor: its word lies in its own row of the opcode
table (30_encoding.md R54), which is the row's mnemonic, match and mask of spec/opcode_table.json. -/

namespace Sys2Proof.Laws.RowWord

open Sys2Proof.Machine

/-- The position of the command's row in the opcode table. -/
def rowNumber : Instr → Nat
  | .nop => 0
  | .clr => 1
  | .rdreg _ => 2
  | .setr _ => 3
  | .push _ => 4
  | .ldw _ => 5
  | .stw _ => 6
  | .rdrs _ => 7
  | .gfldi _ => 8
  | .gfaddi _ => 9
  | .gfmuli _ => 10
  | .gflog => 11
  | .gfexp => 12
  | .genrd _ => 13
  | .shl => 14
  | .macg => 15
  | .step => 16
  | .enc => 17

/-- The command's word is selected by its row, and the row builds the command back from the word's low byte. -/
def Statement (i : Instr) : Prop :=
  ∀ row, opcodeRows[rowNumber i]? = some row → row.selects (encode i) = true ∧ row.build (immField (encode i)) = i

theorem nop : Statement .nop := by rintro row ⟨⟩; decide
theorem clr : Statement .clr := by rintro row ⟨⟩; decide
theorem rdreg (n : Byte) : Statement (.rdreg n) := by rintro row ⟨⟩; revert n; decide +kernel
theorem setr (r : Byte) : Statement (.setr r) := by rintro row ⟨⟩; revert r; decide +kernel
theorem push (b : Byte) : Statement (.push b) := by rintro row ⟨⟩; revert b; decide +kernel
theorem ldw (j : Byte) : Statement (.ldw j) := by rintro row ⟨⟩; revert j; decide +kernel
theorem stw (j : Byte) : Statement (.stw j) := by rintro row ⟨⟩; revert j; decide +kernel
theorem rdrs (j : Byte) : Statement (.rdrs j) := by rintro row ⟨⟩; revert j; decide +kernel
theorem gfldi (b : Byte) : Statement (.gfldi b) := by rintro row ⟨⟩; revert b; decide +kernel
theorem gfaddi (b : Byte) : Statement (.gfaddi b) := by rintro row ⟨⟩; revert b; decide +kernel
theorem gfmuli (b : Byte) : Statement (.gfmuli b) := by rintro row ⟨⟩; revert b; decide +kernel
theorem gflog : Statement .gflog := by rintro row ⟨⟩; decide
theorem gfexp : Statement .gfexp := by rintro row ⟨⟩; decide
theorem genrd (k : Byte) : Statement (.genrd k) := by rintro row ⟨⟩; revert k; decide +kernel
theorem shl : Statement .shl := by rintro row ⟨⟩; decide
theorem macg : Statement .macg := by rintro row ⟨⟩; decide
theorem step : Statement .step := by rintro row ⟨⟩; decide
theorem enc : Statement .enc := by rintro row ⟨⟩; decide

end Sys2Proof.Laws.RowWord
end

