-- ==== Sys2Proof/Tests/Slice0.lean ====
section
/-! SUPPORT. The model's own tests: words written out from 30_encoding.md, one-step vectors of 95_test_vectors.md (each test
names its vector), and for every statement with hypotheses a state and operands that meet them. -/

namespace Sys2Proof.Tests

-- The many small tests are checked one after another: side by side they ask for more threads than a check may start.
set_option Elab.async false

open Sys2Proof Sys2Proof.Machine

/-! ## Well-formedness -/

theorem test_wellFormed_refuses_reserved_registers :
    (Instr.rdreg 4).wellFormed = false ∧ (Instr.rdreg 255).wellFormed = false ∧ (Instr.rdreg 3).wellFormed = true := by decide

/-! ## Decoding: words written out bit by bit from 30_encoding.md R51, R52, R54 -/

theorem test_decode_system :
    decode 0b0000000000000000#16 = .ok .nop ∧ decode 0b0000000100000000#16 = .ok .clr ∧
    decode 0b0000001000000011#16 = .ok (.rdreg 3) ∧ decode 0b0000001101000100#16 = .ok (.setr 68) := by decide

theorem test_decode_buffer :
    decode 0b0001000010101011#16 = .ok (.push 0xAB) ∧ decode 0b0001000111111110#16 = .ok (.ldw 254) ∧
    decode 0b0001001000000101#16 = .ok (.stw 5) ∧ decode 0b0001001100001010#16 = .ok (.rdrs 10) := by decide

theorem test_decode_field :
    decode 0b0010000011111111#16 = .ok (.gfldi 0xFF) ∧ decode 0b0010000110001111#16 = .ok (.gfaddi 0x8F) ∧
    decode 0b0010001011001010#16 = .ok (.gfmuli 0xCA) ∧ decode 0b0010001100000000#16 = .ok .gflog ∧
    decode 0b0010010000000000#16 = .ok .gfexp := by decide

theorem test_decode_polynomial :
    decode 0b0011000000000110#16 = .ok (.genrd 6) ∧ decode 0b0011000100000000#16 = .ok .shl ∧
    decode 0b0011001000000000#16 = .ok .macg ∧ decode 0b0011001100000000#16 = .ok .step ∧
    decode 0b0011010000000000#16 = .ok .enc := by decide

/-- The illegal rows of 95_test_vectors.md section 3. -/
theorem test_decode_refuses :
    decode 0x0001 = .error .nonzeroLowByte ∧ decode 0x01FF = .error .nonzeroLowByte ∧
    decode 0x0204 = .error .reservedRegister ∧ decode 0x02FF = .error .reservedRegister ∧
    decode 0x0400 = .error .unlistedOpcode ∧ decode 0x0F00 = .error .unlistedOpcode ∧
    decode 0x1400 = .error .unlistedOpcode ∧ decode 0x2301 = .error .nonzeroLowByte ∧
    decode 0x2500 = .error .unlistedOpcode ∧ decode 0x3401 = .error .nonzeroLowByte ∧
    decode 0x3500 = .error .unlistedOpcode ∧ decode 0x8000 = .error .unlistedOpcode ∧
    decode 0xFFFF = .error .unlistedOpcode := by decide

theorem test_decodeTableWord :
    decodeTableWord 16 0x10EC = some (.push 0xEC) ∧ decodeTableWord 16 0x3400 = some .enc ∧
    decodeTableWord 16 0x0204 = none := by decide

/-- 30_encoding.md R59, R60. -/
theorem test_assembler :
    assemble ["PUSH 236", "PUSH 0xEC ; the same", "STAT", "ENC"] = some [0x10EC, 0x10EC, 0x0203, 0x3400] ∧
    assemble ["PUSH 256"] = none ∧ assemble ["ENC 0"] = none ∧ assemble ["PUSH"] = none := by decide +kernel

/-! ## One step, against 95_test_vectors.md -/

/-- A state with nothing pending. -/
def st (acc : Byte) (rlen : BitVec 7) (dlen : Byte) (done : Bool) (err : BitVec 3) (w : Memory) : State :=
  { acc, rlen, dlen, done, err, w, pending := [], rsp := none }

/-- The state of vectors B5 and S2 after `ENC`: `SETR 7`; `PUSH 1`; `ENC`, with `ACC` as given. -/
def finished (acc : Byte) (err : BitVec 3) : State :=
  st acc 7 1 true err [(0, 0x7F), (1, 0x7A), (2, 0x9A), (3, 0xA4), (4, 0x0B), (5, 0x44), (6, 0x75)]

/-- `s` with the host giving one command word. -/
def given (s : State) (cmd : Word16) : State := { s with pending := [.command cmd] }

/-- The outcome is a next state that passes the check. -/
def nextSuch (o : Result) (ok : State → Bool) : Bool :=
  match o with
  | .next t => ok t
  | .fault _ => false
  | .refused _ => false

/-- The word is answered `rsp` and leaves `ACC`, `RLEN`, `DLEN`, `DONE`, `ERR` and the buffer so. -/
def leaves (s : State) (cmd rsp : Word16) (t : State) : Bool :=
  nextSuch (step (given s cmd)) fun u => decide (u = { t with pending := [], rsp := some rsp })

theorem test_reset_runs_a_placed_word :
    nextSuch (step (State.reset.withFetchWord 16 0x10AB)) (fun t => decide (t.dlen = 1 ∧ t.w = [(0, 0xAB)])) = true ∧
    State.reset.w.wf = true := by decide +kernel

/-- S4. -/
theorem test_nop : leaves (st 3 9 0 false 0 []) 0x0000 0x2000 (st 3 9 0 false 0 []) = true ∧
    leaves (st 3 9 0 false 2 []) 0x0000 0xA200 (st 3 9 0 false 2 []) = true := by decide +kernel

/-- S2. -/
theorem test_clr_from_finished : leaves (finished 0x55 0) 0x0100 0x0000 (st 0 0 0 false 0 []) = true := by decide +kernel

/-- X1. -/
theorem test_clr_from_faulted : leaves (st 0x66 10 2 false 2 [(0, 0x10), (1, 0x20)]) 0x0100 0x0000 State.reset = true := by
  decide +kernel

/-- The two bytes pushed in S1 and X1. -/
def pushed (acc : Byte) (err : BitVec 3) (b c : Byte) : State := st acc 10 2 false err [(0, b), (1, c)]

/-- S1. -/
theorem test_rdreg :
    leaves (pushed 0x77 0 0x12 0x34) 0x0200 0x2077 (pushed 0x77 0 0x12 0x34) = true ∧
    leaves (pushed 0x77 0 0x12 0x34) 0x0201 0x200A (pushed 0x77 0 0x12 0x34) = true ∧
    leaves (pushed 0x77 0 0x12 0x34) 0x0202 0x2002 (pushed 0x77 0 0x12 0x34) = true ∧
    leaves (pushed 0x77 0 0x12 0x34) 0x0203 0x2020 (pushed 0x77 0 0x12 0x34) = true := by decide +kernel

/-- X1: `RDREG` in the faulted state, and a reserved number there. -/
theorem test_rdreg_faulted :
    leaves (pushed 0x66 2 0x10 0x20) 0x0200 0xA266 (pushed 0x66 2 0x10 0x20) = true ∧
    leaves (pushed 0x66 2 0x10 0x20) 0x0203 0xA2A2 (pushed 0x66 2 0x10 0x20) = true ∧
    leaves (pushed 0x66 2 0x10 0x20) 0x0204 0xA200 (pushed 0x66 2 0x10 0x20) = true := by decide +kernel

/-- S3 and section 3. -/
theorem test_setr : leaves (st 0 7 0 false 0 []) 0x0344 0x2000 (st 0 68 0 false 0 []) = true ∧
    leaves (st 0 0 0 false 0 []) 0x0307 0x2000 (st 0 7 0 false 0 []) = true ∧
    leaves (st 0 0 0 false 0 []) 0x0306 0x8200 (st 0 0 0 false 2 []) = true := by decide +kernel

/-- X1 and X3. -/
theorem test_setr_faults :
    leaves (st 0x66 10 2 false 0 [(0, 0x10), (1, 0x20)]) 0x0345 0xA200 (st 0x66 10 2 false 2 [(0, 0x10), (1, 0x20)]) = true ∧
    leaves (finished 0 0) 0x0300 0xE500 (finished 0 5) = true := by decide +kernel

/-- B1. -/
theorem test_push : leaves (st 0 0 1 false 0 [(0, 0xDE)]) 0x10AD 0x0000 (st 0 0 2 false 0 [(0, 0xDE), (1, 0xAD)]) = true := by
  decide +kernel

/-- B3: the last entry, and the full buffer. -/
theorem test_push_at_the_end : leaves (st 0 0 254 false 0 []) 0x1004 0x0000 (st 0 0 255 false 0 [(254, 4)]) = true ∧
    leaves (st 0 0 255 false 0 [(254, 4)]) 0x1001 0x8400 (st 0 0 255 false 4 [(254, 4)]) = true := by decide +kernel

/-- B1 and X3. -/
theorem test_ldw : leaves (st 0 0 4 false 0 [(0, 0xDE), (1, 0xAD), (3, 0xEF)]) 0x1103 0x00EF
      (st 0xEF 0 4 false 0 [(0, 0xDE), (1, 0xAD), (3, 0xEF)]) = true ∧
    leaves (finished 0x55 0) 0x1107 0x6000 (finished 0 0) = true := by decide +kernel

/-- X3: `LDW` has no `DONE` check. -/
theorem test_ldw_255 : leaves (finished 0 0) 0x11FF 0xE200 (finished 0 2) = true := by decide +kernel

/-- B2. -/
theorem test_stw : leaves (st 0x99 0 1 false 0 [(0, 0x11), (5, 0x99)]) 0x12FE 0x0000
      (st 0x99 0 1 false 0 [(0, 0x11), (5, 0x99), (254, 0x99)]) = true ∧
    leaves (st 0x22 0 2 false 0 [(0, 0x11)]) 0x12FF 0x8200 (st 0x22 0 2 false 2 [(0, 0x11)]) = true := by decide +kernel

/-- X3. -/
theorem test_stw_after_enc : leaves (finished 0 0) 0x12FF 0xE500 (finished 0 5) = true := by decide +kernel

/-- B5. -/
theorem test_rdrs : leaves (finished 0x55 0) 0x1306 0x6075 (finished 0x55 0) = true ∧
    leaves (finished 0 0) 0x1307 0xE200 (finished 0 2) = true := by decide +kernel

/-- B4 and X3. -/
theorem test_rdrs_before_enc : leaves (st 0 7 1 false 0 [(0, 1)]) 0x1300 0xA500 (st 0 7 1 false 5 [(0, 1)]) = true ∧
    leaves (st 0 7 0 false 0 []) 0x13C8 0xA500 (st 0 7 0 false 5 []) = true := by decide +kernel

/-- Section 3 and X1. -/
theorem test_gfldi : leaves (st 0 0 0 false 0 []) 0x20FF 0x00FF (st 0xFF 0 0 false 0 []) = true ∧
    leaves (st 0x66 10 0 false 2 []) 0x2000 0xA200 (st 0x66 10 0 false 2 []) = true := by decide +kernel

/-- F2. -/
theorem test_gfaddi : leaves (st 0x8F 0 0 false 0 []) 0x218F 0x0000 (st 0 0 0 false 0 []) = true ∧
    leaves (st 0x00 0 0 false 0 []) 0x21FF 0x00FF (st 0xFF 0 0 false 0 []) = true := by decide +kernel

/-- F1. -/
theorem test_gfmul : gfmul 0x53 0xCA = 0x8F ∧ gfmul 0x80 0x02 = 0x1D ∧ gfmul 0x02 0x8E = 0x01 ∧ gfmul 0xFF 0xFF = 0xE2 ∧
    gfmul 0x03 0x07 = 0x09 ∧ gfmul 0xB6 0x53 = 0xEE ∧ gfmul 0x01 0xC3 = 0xC3 ∧ gfmul 0x8E 0x8E = 0x47 ∧
    gfmul 0x00 0x37 = 0x00 ∧ gfmul 0xC4 0x00 = 0x00 := by decide +kernel

/-- F2 and X3. -/
theorem test_gfmuli : leaves (st 0x53 0 0 false 0 []) 0x22CA 0x008F (st 0x8F 0 0 false 0 []) = true ∧
    leaves (finished 2 0) 0x2280 0x601D (finished 0x1D 0) = true := by decide +kernel

/-- F3 and F5. -/
theorem test_gflog : leaves (st 0xFF 0 0 false 0 []) 0x2300 0x00AF (st 0xAF 0 0 false 0 []) = true ∧
    leaves (st 0 0 0 false 0 []) 0x2300 0x8600 (st 0 0 0 false 6 []) = true := by decide +kernel

/-- F4. -/
theorem test_gfexp : leaves (st 254 0 0 false 0 []) 0x2400 0x008E (st 0x8E 0 0 false 0 []) = true ∧
    leaves (st 255 0 0 false 0 []) 0x2400 0x0001 (st 0x01 0 0 false 0 []) = true := by decide +kernel

/-- Section 2. -/
theorem test_tables : log 0x03 = 25 ∧ log 0x53 = 206 ∧ log 0xFF = 175 ∧ antilog 8 = 0x1D ∧ antilog 127 = 0xCC ∧
    antilog 254 = 0x8E ∧ genRow 7 = some [87, 229, 146, 149, 238, 102, 21] ∧
    genRow 13 = some [74, 152, 176, 100, 86, 100, 106, 104, 130, 218, 206, 140, 78] ∧
    genTerm 68 0 = some 247 ∧ genTerm 68 67 = some 238 ∧ genRow 6 = none ∧ genRow 69 = none := by decide +kernel

/-- Q1. -/
theorem test_genrd : leaves (st 0x57 7 0 false 0 []) 0x3006 0x2015 (st 0x15 7 0 false 0 []) = true ∧
    leaves (st 0x75 7 0 false 0 []) 0x3007 0xA200 (st 0x75 7 0 false 2 []) = true := by decide +kernel

/-- Section 3 and X3. -/
theorem test_genrd_other_phases : leaves (st 0 0 0 false 0 []) 0x3000 0x8200 (st 0 0 0 false 2 []) = true ∧
    leaves (finished 0 0) 0x3000 0x6057 (finished 0x57 0) = true := by decide +kernel

/-- Q2 and X2. -/
theorem test_shl : leaves (st 0x77 0 3 false 0 [(0, 0xAA), (1, 0xBB), (2, 0xCC), (254, 0x77)]) 0x3100 0x0000
      (st 0x77 0 3 false 0 [(0, 0xBB), (1, 0xCC), (253, 0x77)]) = true ∧
    leaves (finished 0 0) 0x3100 0xE500 (finished 0 5) = true := by decide +kernel

/-- Q3: the second `MACG`. -/
theorem test_macg : leaves
      (st 2 7 0 false 0 [(0, 0x01), (1, 0x7F), (2, 0x7A), (3, 0x9A), (4, 0xA4), (5, 0x0B), (6, 0x44), (7, 0x75)]) 0x3200 0x2000
      (st 2 7 0 false 0 [(0, 0x03), (1, 0x81), (2, 0x8E), (3, 0xB3), (4, 0xF1), (5, 0x1D), (6, 0xCC), (7, 0x9F)]) = true := by
  decide +kernel

/-- Q4 and X3. -/
theorem test_macg_zero : leaves (st 0 7 1 false 0 [(0, 0x44)]) 0x3200 0x2000 (st 0 7 1 false 0 [(0, 0x44)]) = true ∧
    leaves (finished 0 0) 0x3200 0xE500 (finished 0 5) = true := by decide +kernel

/-- Q7. -/
theorem test_step : leaves (st 0 7 2 false 0 [(0, 0x8E), (1, 0x35)]) 0x3300 0x2000
      (st 0 7 2 false 0 [(0, 0x84), (1, 0x3D), (2, 0x4D), (3, 0x52), (4, 0x8B), (5, 0x22), (6, 0xB4)]) = true := by
  decide +kernel

/-- Q6. -/
theorem test_step_zero_lead : leaves (st 0 7 2 false 0 [(1, 0x35)]) 0x3300 0x2000 (st 0 7 2 false 0 [(0, 0x35)]) = true := by
  decide +kernel

/-- V1, the published example: sixteen data codewords, ten RS codewords. -/
theorem test_enc_published_example :
    nextSuch (step (given (st 0 10 16 false 0 [(0, 0x10), (1, 0x20), (2, 0x0C), (3, 0x56), (4, 0x61), (5, 0x80), (6, 0xEC),
        (7, 0x11), (8, 0xEC), (9, 0x11), (10, 0xEC), (11, 0x11), (12, 0xEC), (13, 0x11), (14, 0xEC), (15, 0x11)]) 0x3400))
      (fun t => decide (t.rsp = some 0x6000 ∧ t.done = true ∧ t.w.wf = true ∧
        t.result 12 = [0xA5, 0x24, 0xD4, 0xC1, 0xED, 0x36, 0xC7, 0x87, 0x2C, 0x55, 0x00, 0x00])) = true := by decide +kernel

/-- X3 and Q12: `E_EMPTY` before `E_PARAM`, and `d + r = 256`. -/
theorem test_enc_checks : leaves (st 0 0 0 false 0 []) 0x3400 0x8300 (st 0 0 0 false 3 []) = true ∧
    leaves (st 0 68 188 false 0 [(1, 8)]) 0x3400 0xA200 (st 0 68 188 false 2 [(1, 8)]) = true := by decide +kernel

/-- X1: an illegal word in the faulted state does not change `ERR`. -/
theorem test_first_fault_wins : leaves (st 0x66 10 0 false 2 []) 0xFFFF 0xA200 (st 0x66 10 0 false 2 []) = true ∧
    leaves State.reset 0x3101 0x8100 (st 0 0 0 false 1 []) = true := by decide +kernel

/-! ## Witnesses: for each statement with hypotheses, states and operands that meet them, clause by clause -/

/-- `SETR 7`; `PUSH 1` (the state before `ENC` in vector Q8). -/
def open7 : State := st 0 7 1 false 0 [(0, 1)]

theorem open7_inv : open7.Inv := by constructor <;> decide +kernel

theorem finished_inv : (finished 0x55 0).Inv := by constructor <;> decide +kernel

/-- The faulted state of vector X1. -/
def faulted : State := pushed 0x66 2 0x10 0x20

theorem faulted_inv : faulted.Inv := by constructor <;> decide +kernel

/-- A block with the first data codeword 1 and zeros after it, `d + r` at any value. -/
def leadOne (r : BitVec 7) (d : Byte) : State := st 0 r d false 0 [(0, 1)]

theorem leadOne_loaded (r : BitVec 7) (d : Byte) (hd : 0 < d.toNat) :
    (leadOne r d).Loaded r.toNat (1 :: List.replicate (d.toNat - 1) 0) where
  running := rfl
  open_ := rfl
  degree := rfl
  count := by simp [leadOne, st]; omega
  buffer := rfl
  bytes j := by
    cases j with
    | zero => rfl
    | succ j => simp [leadOne, st, Memory.read, Memory.unlisted, List.getElem?_replicate]; split <;> rfl

theorem witness_DecodeOfEncodeIsTheCommand : (Instr.rdreg 3).wellFormed = true ∧ (Instr.push 255).wellFormed = true := by decide

theorem witness_EncodeOfDecodeIsTheWord : decode 0x0203 = .ok (.rdreg 3) ∧ decode 0x10FF = .ok (.push 255) := by decide

theorem witness_DecodeIsTheOpcodeTable : decode 0x0203 = .ok (.rdreg 3) ∧
    ∃ row ∈ opcodeRows, row.selects 0x0203 = true ∧ row.legal (immField 0x0203) = true ∧
      Instr.rdreg 3 = row.build (immField 0x0203) :=
  ⟨by decide, _, by unfold opcodeRows; exact .tail _ (.tail _ (.head _)), by decide, by decide, by decide⟩

theorem witness_IllegalWordsFaultOrAreRejected :
    illegalWord 0x0001 ∧ illegalWord 0x0204 ∧ illegalWord 0x0400 ∧ illegalWord 0xFFFF ∧
    (given open7 0x0204).pending = .command 0x0204 :: [] ∧ (given faulted 0x0001).pending = .command 0x0001 :: [] ∧
    open7.err = 0 ∧ faulted.err ≠ 0 := by unfold illegalWord; decide

theorem witness_StepRunsTheDecodedCommand :
    (given open7 0x3400).pending = .command 0x3400 :: [] ∧ decode 0x3400 = .ok .enc ∧
    State.pending { open7 with pending := [.reset] } = .reset :: [] ∧ open7.pending = [] ∧
    (Instr.rdreg 3).wellFormed = true := by decide

theorem witness_StepFollowsTheSixStepsOfOneCommand :
    (given faulted 0x0200).pending = .command 0x0200 :: [] ∧ faulted.err ≠ 0 ∧
    decode 0x0200 = .ok (.rdreg 0) ∧ runsWhenFaulted (.rdreg 0) = true ∧
    decode 0x3400 = .ok .enc ∧ runsWhenFaulted .enc = false ∧
    open7.err = 0 ∧ decode 0x0204 = .error .reservedRegister ∧
    failingCode (.rdrs 0) (open7.taken []) = some 5 ∧ (∃ t, step (given open7 0x3400) = .next t) :=
  ⟨rfl, by decide, by decide, by decide, by decide, by decide, rfl, by decide, by decide, _, rfl⟩

theorem witness_StepNeverStops : open7.Inv ∧ (finished 0x55 0).Inv ∧ faulted.Inv := ⟨open7_inv, finished_inv, faulted_inv⟩

theorem witness_EveryStepKeepsTheInvariants : open7.Inv ∧ ∃ t, step (given open7 0x3400) = .next t := ⟨open7_inv, _, rfl⟩

theorem witness_StepsWithoutRawCommandsKeepTheZeroTail :
    (given open7 0x3400).Inv ∧ (given open7 0x3400).ZeroTail ∧ (∃ t, step (given open7 0x3400) = .next t) ∧
    ∀ cmd rest i, (given open7 0x3400).pending = .command cmd :: rest → decode cmd = .ok i → isRaw i = false := by
  refine ⟨⟨by decide, by decide, by decide, by decide, by decide⟩, ⟨fun _ j hj => ?_, fun h => absurd h (by decide)⟩, ⟨_, rfl⟩, ?_⟩
  · have h1 : 1 ≤ j := hj
    simp [given, open7, st, Memory.read, Memory.unlisted]; omega
  · intro cmd rest i hp hd
    simp only [given, List.cons.injEq, HostInput.command.injEq] at hp
    rw [← hp.1] at hd
    have : decode 0x3400 = .ok .enc := by decide
    rw [this, Except.ok.injEq] at hd
    rw [← hd]; rfl

theorem witness_EveryCommandWordGetsOneResponse :
    (given open7 0x3400).err = 0 ∧ (∃ t, step (given open7 0x3400) = .next t) ∧
    failingCode .enc ((given open7 0x3400).taken []) = none ∧
    (given faulted 0x0100).err ≠ 0 ∧ (∃ t, step (given faulted 0x0100) = .next t) :=
  ⟨rfl, ⟨_, rfl⟩, by decide, by decide, _, rfl⟩

theorem witness_DataByteOfEveryCommand :
    (Instr.ldw 254).wellFormed = true ∧ (∃ t, exec (.ldw 254) open7 = .next t) ∧ open7.err = 0 ∧
    failingCode (.ldw 254) open7 = none ∧ failingCode (.ldw 255) open7 = some 2 ∧
    faulted.err ≠ 0 ∧ runsWhenFaulted (.rdreg 3) = true ∧ (∃ t, exec (.rdreg 3) faulted = .next t) ∧
    illegalWord 0x0204 ∧ (∃ t, step (given open7 0x0204) = .next t) :=
  ⟨rfl, ⟨_, rfl⟩, rfl, by decide, by decide, by decide, rfl, ⟨_, rfl⟩, by unfold illegalWord; decide, _, rfl⟩

theorem witness_ChecksFollowTheTable :
    open7.err = 0 ∧ failingCode (.rdrs 0) open7 = some 5 ∧ failingCode .enc (leadOne 68 188) = some 2 ∧
    failingCode .enc (leadOne 68 187) = none ∧ (leadOne 68 187).Inv ∧ failingCode (.push 0) (leadOne 7 255) = some 4 ∧
    failingCode (.push 0) (leadOne 7 254) = none :=
  ⟨rfl, by decide, by decide, by decide, by constructor <;> decide, by decide, by decide⟩

theorem witness_FaultChangesErrAlone : (given open7 0x1300).pending = .command 0x1300 :: [] ∧ (given open7 0x1300).err = 0 ∧
    ∃ t, step (given open7 0x1300) = .next t ∧ t.err ≠ 0 := ⟨rfl, rfl, _, rfl, by decide⟩

theorem witness_FaultedStateRejectsAllButThree :
    (given faulted 0x3400).pending = .command 0x3400 :: [] ∧ (given faulted 0x3400).err ≠ 0 ∧
    (∀ i, decode 0x3400 = .ok i → runsWhenFaulted i = false) ∧ (∀ i, decode 0x0204 = .ok i → runsWhenFaulted i = false) ∧
    decode 0x0000 = .ok .nop ∧ decode 0x0100 = .ok .clr ∧ decode 0x0200 = .ok (.rdreg 0) ∧ decode 0x0201 = .ok (.rdreg 1) ∧
    decode 0x0202 = .ok (.rdreg 2) ∧ decode 0x0203 = .ok (.rdreg 3) := by
  refine ⟨rfl, by decide, ?_, ?_, by decide, by decide, by decide, by decide, by decide, by decide⟩
  · have h : decode 0x3400 = .ok .enc := by decide
    intro i hi; rw [h, Except.ok.injEq] at hi; rw [← hi]; rfl
  · have h : decode 0x0204 = .error .reservedRegister := by decide
    intro i hi; rw [h] at hi; cases hi

theorem witness_OnlyClrOrResetLeavesTheFaultedState :
    State.err { faulted with pending := [.reset] } ≠ 0 ∧ State.pending { faulted with pending := [.reset] } = .reset :: [] ∧
    (given faulted 0x0100).err ≠ 0 ∧ (given faulted 0x0100).pending = .command 0x0100 :: [] ∧ decode 0x0100 = .ok .clr ∧
    (given faulted 0x3400).err ≠ 0 ∧ (∃ t, step (given faulted 0x3400) = .next t) ∧
    (∀ rest, (given faulted 0x3400).pending ≠ .reset :: rest) ∧
    ∀ cmd rest, (given faulted 0x3400).pending = .command cmd :: rest → decode cmd ≠ .ok .clr := by
  refine ⟨by decide, rfl, by decide, rfl, by decide, by decide, ⟨_, rfl⟩, fun rest => by simp [given], fun cmd rest h => ?_⟩
  simp only [given, List.cons.injEq, HostInput.command.injEq] at h
  rw [← h.1]; decide

theorem witness_ErrHoldsTheFirstFault :
    (given open7 0x1300).err = 0 ∧ (∃ t, step (given open7 0x1300) = .next t ∧ t.err ≠ 0) ∧
    (given faulted 0x0100).err ≠ 0 ∧ (∃ t, step (given faulted 0x0100) = .next t ∧ t.err ≠ (given faulted 0x0100).err) ∧
    runsWhenFaulted .enc = false := ⟨rfl, ⟨_, rfl, by decide⟩, by decide, ⟨_, rfl, by decide⟩, rfl⟩

theorem witness_AccHasItsWritersAndReaders :
    (∃ t, exec (.push 1) open7 = .next t) ∧ writesAcc (.push 1) = false ∧ (∃ t, exec .clr open7 = .next t) ∧
    readsAcc (.rdreg 1) = false ∧ readsAcc .enc = false := ⟨⟨_, rfl⟩, rfl, ⟨_, rfl⟩, rfl, rfl⟩

theorem witness_RlenAndDlenHaveTheirWriters :
    (∃ t, exec (.setr 7) open7 = .next t ∧ t.rlen = 7) ∧ (∃ t, exec (.setr 68) open7 = .next t ∧ t.rlen = 68) ∧
    (∃ t, exec (.push 0) (leadOne 7 254) = .next t ∧ t.dlen = 255) ∧ (∃ t, exec .clr open7 = .next t) :=
  ⟨⟨_, rfl, rfl⟩, ⟨_, rfl, rfl⟩, ⟨_, rfl, rfl⟩, _, rfl⟩

theorem witness_DoneFreezesAResult :
    (finished 0 0).err = 0 ∧ (finished 0 0).done = true ∧ frozenByDone .shl = true ∧
    (∃ t, exec (.ldw 0) (finished 0 0) = .next t) ∧ open7.done = false ∧
    (∃ t, exec .enc open7 = .next t ∧ t.done = true) ∧ open7.err = 0 ∧ failingCode .enc open7 = none ∧
    (∃ t, exec .clr (finished 0 0) = .next t) :=
  ⟨rfl, rfl, rfl, ⟨_, rfl⟩, rfl, ⟨_, rfl, rfl⟩, rfl, by decide, _, rfl⟩

theorem witness_WorkBufferFrame :
    open7.Inv ∧ (∃ t, exec (.ldw 0) open7 = .next t) ∧ writesBuffer (.ldw 0) = false ∧
    (∃ t, exec (.push 2) open7 = .next t) ∧ (∃ t, exec (.stw 254) open7 = .next t) ∧ (∃ t, exec .macg open7 = .next t) ∧
    (∃ t, exec (.stw 255) open7 = .next t ∧ t.err ≠ 0) ∧ (∃ t, exec .clr open7 = .next t) :=
  ⟨open7_inv, ⟨_, rfl⟩, rfl, ⟨_, rfl⟩, ⟨_, rfl⟩, ⟨_, rfl⟩, ⟨_, rfl, by decide⟩, _, rfl⟩

theorem witness_ReadsHaveNoSideEffect :
    (∃ t u, exec (.rdrs 6) (finished 0 0) = .next t ∧ exec (.rdrs 6) t = .next u) ∧
    (∃ t u, exec (.genrd 6) open7 = .next t ∧ exec (.genrd 6) t = .next u) ∧ writesAcc (.rdrs 6) = false ∧
    failingCode (.rdrs 6) (finished 0 0) = none ∧ faulted.err ≠ 0 ∧ (∃ t, exec (.ldw 0) faulted = .next t) :=
  ⟨⟨_, _, rfl, rfl⟩, ⟨_, _, rfl, rfl⟩, rfl, by decide, by decide, _, rfl⟩

theorem witness_ClrLeavesTheResetState :
    (∃ t, exec .nop faulted = .next t) ∧ faulted.err ≠ 0 ∧ (∃ t, exec .nop (finished 0 0) = .next t) ∧
    (finished 0 0).done = true := ⟨⟨_, rfl⟩, by decide, ⟨_, rfl⟩, rfl⟩

theorem witness_RdregReadsTheRegister : 4 ≤ (4 : Byte).toNat ∧ 4 ≤ (255 : Byte).toNat ∧ open7.err = 0 ∧ faulted.err ≠ 0 := by
  decide

theorem witness_SetrSetsRlen : open7.err = 0 ∧ open7.done = false ∧ (finished 0 0).err = 0 ∧ (finished 0 0).done = true ∧
    (6 : Byte).toNat < 7 ∧ 68 < (69 : Byte).toNat ∧ 7 ≤ (7 : Byte).toNat ∧ (68 : Byte).toNat ≤ 68 := by decide

theorem witness_PushAppendsAtDlen :
    (leadOne 7 254).err = 0 ∧ (leadOne 7 254).done = false ∧ (leadOne 7 254).dlen.toNat < 255 ∧ (leadOne 7 254).w.wf = true ∧
    (leadOne 7 255).err = 0 ∧ (leadOne 7 255).done = false ∧ (leadOne 7 255).dlen.toNat = 255 ∧
    (finished 0 0).err = 0 ∧ (finished 0 0).done = true := by decide

theorem witness_LdwLoadsAcc : open7.err = 0 ∧ (254 : Byte) ≠ 255 ∧ faulted.err ≠ 0 := by decide

theorem witness_StwStoresAcc : open7.err = 0 ∧ open7.done = false ∧ open7.w.wf = true ∧ (254 : Byte) ≠ 255 ∧
    (finished 0 0).err = 0 ∧ (finished 0 0).done = true := by decide

theorem witness_RdrsReadsTheResult : open7.err = 0 ∧ open7.done = false ∧ (finished 0 0).err = 0 ∧ (finished 0 0).done = true ∧
    (finished 0 0).rlen.toNat ≤ (7 : Byte).toNat ∧ (6 : Byte).toNat < (finished 0 0).rlen.toNat := by decide

theorem witness_GfldiLoadsTheByte : open7.err = 0 := rfl

theorem witness_GfaddiAddsInTheField : open7.err = 0 := rfl

theorem witness_GfmuliMultipliesInTheField : open7.err = 0 ∧ open7.acc = 0 ∧ (finished 0x55 0).err = 0 ∧
    (finished 0x55 0).acc ≠ 0 ∧ (0x53 : Byte) ≠ 0 := by decide

theorem witness_GflogTakesTheLog : open7.err = 0 ∧ open7.acc = 0 ∧ (finished 0x55 0).err = 0 ∧ (finished 0x55 0).acc ≠ 0 := by
  decide

theorem witness_GfexpTakesTheAntilog : open7.err = 0 ∧ (finished 0xFF 0).err = 0 ∧ (finished 0xFF 0).acc = 255 ∧
    (finished 0xFF 0).acc ≠ 0 := by decide

theorem witness_GenrdReadsTheGeneratorTerm : open7.err = 0 ∧ degreeHeld open7.rlen.toNat ∧ (6 : Byte).toNat < open7.rlen.toNat ∧
    open7.rlen.toNat ≤ (7 : Byte).toNat ∧ (leadOne 0 1).err = 0 ∧ (leadOne 0 1).rlen = 0 ∧
    degreeHeld (leadOne 68 1).rlen.toNat ∧ (67 : Byte).toNat + 1 = (leadOne 68 1).rlen.toNat := by decide

theorem witness_ShlShiftsTheBuffer : open7.err = 0 ∧ open7.done = false ∧ open7.w.wf = true ∧ (finished 0 0).err = 0 ∧
    (finished 0 0).done = true := by decide

theorem witness_MacgAddsTheScaledGenerator :
    (finished 0 0).err = 0 ∧ (finished 0 0).done = true ∧ (leadOne 0 1).err = 0 ∧ (leadOne 0 1).done = false ∧
    (leadOne 0 1).rlen = 0 ∧ open7.rlen ≠ 0 ∧ open7.acc = 0 ∧ open7.done = false ∧
    (st 2 68 1 false 0 []).err = 0 ∧ (st 2 68 1 false 0 []).done = false ∧ degreeHeld (st 2 68 1 false 0 []).rlen.toNat ∧
    (st 2 68 1 false 0 []).acc ≠ 0 ∧ (st 2 68 1 false 0 []).w.wf = true := by decide

theorem witness_StepDividesOnce :
    (finished 0 0).err = 0 ∧ (finished 0 0).done = true ∧ (leadOne 0 1).err = 0 ∧ (leadOne 0 1).done = false ∧
    (leadOne 0 1).rlen = 0 ∧ (leadOne 68 1).err = 0 ∧ (leadOne 68 1).done = false ∧ degreeHeld (leadOne 68 1).rlen.toNat ∧
    (leadOne 68 1).w.wf = true ∧ (leadOne 68 1).w.read 0 ≠ 0 ∧ (st 0 7 1 false 0 []).w.read 0 = 0 ∧
    (leadOne 68 187).err = 0 ∧ (leadOne 68 187).done = false ∧ (leadOne 68 187).dlen ≠ 0 ∧
    degreeHeld (leadOne 68 187).rlen.toNat ∧ (leadOne 68 187).dlen.toNat + (leadOne 68 187).rlen.toNat ≤ 255 := by decide +kernel

theorem witness_EncRunsDlenIterations :
    (finished 0 0).err = 0 ∧ (finished 0 0).done = true ∧ (leadOne 7 0).err = 0 ∧ (leadOne 7 0).done = false ∧
    (leadOne 7 0).dlen = 0 ∧ (leadOne 0 1).dlen ≠ 0 ∧ (leadOne 0 1).rlen = 0 ∧
    (leadOne 68 188).rlen ≠ 0 ∧ 255 < (leadOne 68 188).dlen.toNat + (leadOne 68 188).rlen.toNat ∧
    (leadOne 68 187).err = 0 ∧ (leadOne 68 187).done = false ∧ (leadOne 68 187).dlen ≠ 0 ∧
    degreeHeld (leadOne 68 187).rlen.toNat ∧ (leadOne 68 187).dlen.toNat + (leadOne 68 187).rlen.toNat ≤ 255 := by decide +kernel

theorem witness_LdwMacgShlIsStep : open7.Inv ∧ open7.err = 0 ∧ open7.done = false ∧ open7.rlen ≠ 0 :=
  ⟨open7_inv, rfl, rfl, by decide⟩

theorem witness_FieldProductLaws : gfmul 0x00 0x37 = 0 ∧ (0x53 : Byte) ≠ 0 ∧ gfmul 0x53 0x8C = 1 := by decide +kernel

theorem witness_GenHoldsTheGeneratorPolynomials : degreeHeld 7 ∧ degreeHeld 68 ∧ ¬ degreeHeld 6 ∧ ¬ degreeHeld 69 := by decide

theorem leadOne_187 : (leadOne 68 187).Loaded 68 (1 :: List.replicate 186 0) := leadOne_loaded 68 187 (by decide)

theorem leadOne_1 : (leadOne 7 1).Loaded 7 [1] := leadOne_loaded 7 1 (by decide)

theorem witness_EncLeavesTheRemainder :
    (leadOne 68 187).Loaded 68 (1 :: List.replicate 186 0) ∧ blockFits 68 (1 :: List.replicate 186 0) ∧
    (leadOne 7 1).Loaded 7 [1] ∧ blockFits 7 [1] := ⟨leadOne_187, by decide +kernel, leadOne_1, by decide⟩

theorem witness_RemainderIsUnique : polyMul [5] (1 :: [1]) = [5] ++ [5] := by decide +kernel

theorem witness_CodewordVanishesAtTheRoots :
    (leadOne 7 1).Loaded 7 [1] ∧ blockFits 7 [1] ∧ genHoldsGenerator 7 :=
  ⟨leadOne_1, by decide, _, rfl, by decide +kernel⟩

theorem witness_EncIsTheFeedbackShiftRegister :
    (leadOne 68 187).Loaded 68 (1 :: List.replicate 186 0) ∧ blockFits 68 (1 :: List.replicate 186 0) :=
  ⟨leadOne_187, by decide +kernel⟩

/-- A block of one data codeword, and a zero codeword before it where `lead` says so. -/
def single (b : Byte) (lead : Nat) : State := st 0 7 (BitVec.ofNat 8 (lead + 1)) false 0 [(lead, b)]

theorem witness_EncIsLinearInTheData :
    (leadOne 68 187).Loaded 68 (1 :: List.replicate 186 0) ∧ blockFits 68 (1 :: List.replicate 186 0) ∧
    (single 1 0).Loaded 7 [1] ∧ (single 2 0).Loaded 7 [2] ∧ (single 3 0).Loaded 7 (List.zipWith (· ^^^ ·) [1] [2]) ∧
    (single 4 0).Loaded 7 ([1].map (gfmul 4)) ∧ (single 1 1).Loaded 7 (0 :: [1]) ∧ blockFits 7 [1] ∧
    blockFits 7 (0 :: [1]) ∧ (st 0 7 1 false 0 []).Loaded 7 [0] := by
  refine ⟨leadOne_187, by decide +kernel, ?_, ?_, ?_, ?_, ?_, by decide, by decide, ?_⟩ <;>
    refine ⟨rfl, rfl, rfl, by decide, by decide, ?_⟩ <;> intro j <;> rcases j with _ | _ | j <;> first | decide +kernel | rfl

theorem witness_CallFromAnyStateYieldsTheRemainder :
    blockFits (7 : Byte).toNat [1] ∧
    State.pending { finished 0 5 with pending := callInputs 7 [1] ++ [.reset] } = callInputs 7 [1] ++ [.reset] :=
  ⟨by decide, rfl⟩

theorem witness_NothingSurvivesClr : (given faulted 0x0100).pending = .command 0x0100 :: [] ∧
    (given open7 0x0100).pending = (given faulted 0x0100).pending := ⟨rfl, rfl⟩

/-- The smallest admissible buffer (log entry 6), with the stated table. -/
def smallBlock : Config := { nmax := 69, gen := genTable }

theorem smallBlock_admissible : smallBlock.Admissible where
  nmax_le := by decide
  rmax_lt := by decide
  rows := genTable_rows
  entries := Config.stated_admissible.entries

/-- R33, R76, R77, R102 at other parameters: 69 is the first index outside the small block; a table's own entry is read. -/
theorem test_configuration :
    nextSuch (stepWith smallBlock (given (leadOne 7 69) 0x1001)) (fun t => decide (t.rsp = some 0xA400)) = true ∧
    nextSuch (stepWith smallBlock (given (leadOne 7 1) 0x1145)) (fun t => decide (t.rsp = some 0xA200)) = true ∧
    nextSuch (stepWith smallBlock (given (leadOne 7 1) 0x1144)) (fun t => decide (t.rsp = some 0x2000)) = true ∧
    nextSuch (stepWith { nmax := 255, gen := [[9, 8, 7, 6, 5, 4, 3]] } (given (leadOne 7 1) 0x3001))
      (fun t => decide (t.rsp = some 0x2008)) = true := by decide +kernel

theorem witness_EveryConfigurationKeepsTheInvariants : smallBlock.Admissible ∧ (leadOne 68 1).Inv smallBlock :=
  ⟨smallBlock_admissible, by constructor <;> decide⟩

theorem witness_NmaxSetsTheBounds :
    smallBlock.Admissible ∧ (leadOne 68 1).err = 0 ∧ (leadOne 68 1).w.wf smallBlock = true ∧
    smallBlock.nmax ≤ (69 : Byte).toNat ∧ (68 : Byte).toNat < smallBlock.nmax ∧ (leadOne 68 1).done = false ∧
    (leadOne 7 69).err = 0 ∧ (leadOne 7 69).w.wf smallBlock = true ∧ (leadOne 7 69).dlen.toNat = smallBlock.nmax ∧
    (leadOne 7 68).dlen.toNat < smallBlock.nmax ∧ (leadOne 68 1).dlen ≠ 0 ∧ degreeHeld (leadOne 68 1).rlen.toNat ∧
    smallBlock.nmax < (leadOne 68 2).dlen.toNat + (leadOne 68 2).rlen.toNat ∧
    (leadOne 68 1).dlen.toNat + (leadOne 68 1).rlen.toNat ≤ smallBlock.nmax :=
  ⟨smallBlock_admissible, by decide⟩

theorem witness_EncDividesByWhateverGenHolds :
    smallBlock.Admissible ∧ (leadOne 7 1).Loaded 7 [1] smallBlock ∧ blockFits 7 [1] smallBlock ∧
    genHoldsGenerator 7 smallBlock :=
  ⟨smallBlock_admissible, { leadOne_1 with buffer := rfl }, by decide, _, rfl, by decide +kernel⟩

end Sys2Proof.Tests
end

section
/-! # Proofs for every admissible configuration (00_scope.md R4; log entry 6) -/

namespace Sys2Proof.Machine

variable {cfg : Config} {s t : State} {i : Instr}

/-! ## A running command, from its checks -/

/-- A list of checks all pass when its first does and the rest do (60_exceptions.md R122). -/
theorem check_eq_none {p : Prop} [Decidable p] {c : BitVec 3} {rest : Option (BitVec 3)} :
    (if p then some c else rest) = none ↔ ¬ p ∧ rest = none := by
  split <;> simp [*]

theorem execWith_faults {c : BitVec 3} (he : s.err = 0) (hc : failingCode i s cfg = some c) :
    execWith cfg i s = .next (s.afterFault c) := by
  rw [execWith_eq, if_neg (not_not.2 he), hc]

theorem execWith_completes (he : s.err = 0) (hc : failingCode i s cfg = none) (ht : effect i s cfg = some t) :
    execWith cfg i s = .next t := by
  rw [execWith_eq, if_neg (not_not.2 he), hc, ht]; rfl

/-- The commands that execute in the faulted state have no check to fail (60_exceptions.md R124). -/
theorem failingCode_of_runsWhenFaulted (h : runsWhenFaulted i = true) : failingCode i s cfg = none := by
  cases i with
  | nop | clr => rfl
  | rdreg n =>
    have hn : n.toNat ≤ 3 := of_decide_eq_true h
    exact if_neg (by omega)
  | _ => cases h

/-- `STATUS` of a finished block: `DONE` and `RSET` (10_state.md R17). -/
theorem State.responseWord_finished (he : s.err = 0) (hd : s.done = true) (hr : s.rlen ≠ 0) : s.responseWord 0 = 0x6000 := by
  rw [State.responseWord, State.status, State.faultFlag, State.rsetFlag, he, hd, decide_eq_true hr]
  rfl

theorem Memory.divSteps_eq_iterate (terms : List Byte) :
    ∀ (n : Nat) (m : Memory), m.divSteps terms n = (Memory.divStep terms)^[n] m
  | 0, _ => rfl
  | n + 1, m => Memory.divSteps_eq_iterate terms n (m.divStep terms)

/-- The largest index is `NMAX - 1`, so an index passes the check exactly when it is below `NMAX` (20_memory.md R33). -/
theorem indexAbove_iff (hc : cfg.Admissible) (j : Byte) : cfg.nmax - 1 < j.toNat ↔ cfg.nmax ≤ j.toNat := by
  have := hc.rmax_lt
  omega

/-! ## The invariants of R24 (a) to (d) under each update of the state -/

namespace State.Inv

/-- The invariants speak of `W`, `RLEN`, `DLEN`, `DONE` and `ERR` alone. -/
theorem congr (h : s.Inv cfg) (hw : t.w = s.w) (hr : t.rlen = s.rlen) (hl : t.dlen = s.dlen) (hd : t.done = s.done)
    (he : t.err.toNat ≤ 6) : t.Inv cfg where
  buffer := hw ▸ h.buffer
  rlen := hr ▸ h.rlen
  dlen := hl ▸ h.dlen
  err := he
  done := by rw [hd, hr, hl]; exact h.done

theorem taken (h : s.Inv cfg) (rest : List HostInput) : (s.taken rest).Inv cfg := h.congr rfl rfl rfl rfl h.err

theorem afterAnswer (h : s.Inv cfg) (d : Byte) : (s.afterAnswer d).Inv cfg := h.congr rfl rfl rfl rfl h.err

theorem afterAcc (h : s.Inv cfg) (a : Byte) : (s.afterAcc a).Inv cfg := h.congr rfl rfl rfl rfl h.err

theorem afterReject (h : s.Inv cfg) : s.afterReject.Inv cfg := h.afterAnswer 0

theorem afterFault (h : s.Inv cfg) {c : BitVec 3} (hc : c.toNat ≤ 6) : (s.afterFault c).Inv cfg := h.congr rfl rfl rfl rfl hc

/-- A command that writes `W` alone keeps the invariants if it keeps the canonical form. -/
theorem withBuffer (h : s.Inv cfg) {w : Memory} (hw : w.wf cfg = true) : State.Inv { s with w := w } cfg :=
  { h with buffer := hw }

/-- The reset state, whatever the host gives next (10_state.md R23). -/
theorem reset (pending : List HostInput) : State.Inv { State.reset with pending := pending } cfg where
  buffer := rfl
  rlen := .inl rfl
  dlen := Nat.zero_le _
  err := Nat.zero_le _
  done := nofun

/-- A set `RLEN` is a degree the ROM holds (10_state.md R24 (a)). -/
theorem degreeHeld_of_rlen_ne_zero (h : s.Inv cfg) (hr : s.rlen ≠ 0) : degreeHeld s.rlen.toNat :=
  h.rlen.resolve_left fun h0 => hr (BitVec.eq_of_toNat_eq h0)

/-- Where `RLEN` is set the ROM holds its row, and the row has room in the buffer. -/
theorem row (h : s.Inv cfg) (hc : cfg.Admissible) (hr : s.rlen ≠ 0) :
    ∃ terms, genRow s.rlen.toNat cfg = some terms ∧ terms.length = s.rlen.toNat ∧ terms.length < cfg.nmax := by
  obtain ⟨terms, ht, hl⟩ := hc.row (h.degreeHeld_of_rlen_ne_zero hr)
  exact ⟨terms, ht, hl, hc.row_length_lt ht⟩

/-- `SETR` (40_system.md R69): the seven bits hold every degree in range. -/
theorem setRlen (h : s.Inv cfg) (hd : s.done = false) {r : Byte} (hr : degreeHeld r.toNat) :
    State.Inv { s with rlen := r.setWidth 7 } cfg :=
  have hn : (r.setWidth 7).toNat = r.toNat := by
    obtain ⟨-, hr68⟩ := degreeHeld_bounds hr
    rw [BitVec.toNat_setWidth, Nat.mod_eq_of_lt (by omega)]
  { h with rlen := .inr (hn ▸ hr), done := fun h1 => absurd (hd.symm.trans h1) nofun }

/-- `PUSH` below the full buffer (41_buffer.md R76). -/
theorem pushed (h : s.Inv cfg) (hd : s.done = false) (hl : s.dlen.toNat < cfg.nmax) (b : Byte) :
    State.Inv { s with w := s.w.write s.dlen.toNat b, dlen := s.dlen + 1 } cfg :=
  { h with
    buffer := Memory.wf_write h.buffer hl b
    dlen := by
      have hadd : (s.dlen + 1).toNat ≤ s.dlen.toNat + 1 := by
        rw [BitVec.toNat_add]; exact Nat.mod_le _ _
      exact hadd.trans hl
    done := fun h1 => absurd (hd.symm.trans h1) nofun }

/-- `ENC` (43_poly.md R106), its checks passed: `DONE` is set where R24 (d) admits it. -/
theorem encoded (h : s.Inv cfg) {w : Memory} (hw : w.wf cfg = true) (hr : degreeHeld s.rlen.toNat) (hl : s.dlen ≠ 0)
    (hfit : s.dlen.toNat + s.rlen.toNat ≤ cfg.nmax) : State.Inv { s with w := w, done := true } cfg :=
  have hpos : 1 ≤ s.dlen.toNat := Nat.one_le_iff_ne_zero.2 fun h0 => hl (BitVec.eq_of_toNat_eq h0)
  { h with buffer := hw, done := fun _ => ⟨hr, hpos, hfit⟩ }

end State.Inv

/-! ## Every step goes on and keeps the invariants -/

/-- A command whose checks pass completes, since the ROM holds the row it may read, and keeps the invariants. -/
theorem effect_keeps_inv (hc : cfg.Admissible) (h : s.Inv cfg) (hp : failingCode i s cfg = none) :
    ∃ t, effect i s cfg = some t ∧ t.Inv cfg := by
  cases i with simp only [failingCode, check_eq_none, Bool.not_eq_true, and_true] at hp
  | nop => exact ⟨_, rfl, h.afterAnswer _⟩
  | clr => exact ⟨_, rfl, (State.Inv.reset _).afterAnswer _⟩
  | rdreg n => exact ⟨_, by rw [effect, State.readReg_eq, if_neg hp]; rfl, h.afterAnswer _⟩
  | setr r =>
    obtain ⟨hd, hr⟩ := hp
    have hheld : degreeHeld r.toNat := ⟨not_lt.1 fun h7 => hr (.inl h7), not_lt.1 fun h68 => hr (.inr h68)⟩
    exact ⟨_, rfl, (h.setRlen hd hheld).afterAnswer _⟩
  | push b =>
    obtain ⟨hd, hfull⟩ := hp
    exact ⟨_, rfl, (h.pushed hd (lt_of_le_of_ne h.dlen hfull) b).afterAnswer _⟩
  | ldw j => exact ⟨_, rfl, h.afterAcc _⟩
  | stw j =>
    have hj : j.toNat < cfg.nmax := not_le.1 (mt (indexAbove_iff hc j).2 hp.2)
    exact ⟨_, rfl, (h.withBuffer (Memory.wf_write h.buffer hj _)).afterAnswer _⟩
  | rdrs j => exact ⟨_, rfl, h.afterAnswer _⟩
  | gfldi b | gfaddi b | gfmuli b | gflog | gfexp => exact ⟨_, rfl, h.afterAcc _⟩
  | genrd k =>
    obtain ⟨hr, hk⟩ := hp
    obtain ⟨terms, ht, hl, -⟩ := h.row hc hr
    have hterm : genTerm s.rlen.toNat k.toNat cfg = some terms[k.toNat] := by
      rw [genTerm, ht]; exact List.getElem?_eq_getElem (by omega)
    exact ⟨_, by rw [effect, hterm]; rfl, h.afterAcc _⟩
  | shl => exact ⟨_, rfl, (h.withBuffer (Memory.wf_shift h.buffer)).afterAnswer _⟩
  | macg =>
    obtain ⟨terms, ht, -, hl⟩ := h.row hc hp.2
    by_cases ha : s.acc = 0
    · exact ⟨_, by rw [effect, if_pos ha], h.afterAnswer _⟩
    · exact ⟨_, by rw [effect, if_neg ha, ht]; rfl, (h.withBuffer (Memory.wf_addScaled h.buffer hl)).afterAnswer _⟩
  | step =>
    obtain ⟨terms, ht, -, hl⟩ := h.row hc hp.2
    exact ⟨_, by rw [effect, ht]; rfl, (h.withBuffer (Memory.wf_divStep h.buffer hl)).afterAnswer _⟩
  | enc =>
    obtain ⟨-, hd0, hr0, hfit⟩ := hp
    obtain ⟨terms, ht, -, hl⟩ := h.row hc hr0
    exact ⟨_, by rw [effect, ht]; rfl, (h.encoded (Memory.wf_divSteps hl _ _ h.buffer)
      (h.degreeHeld_of_rlen_ne_zero hr0) hd0 (not_lt.1 hfit)).afterAnswer _⟩

/-- Every command is rejected, faults or completes, and keeps the invariants in each case (40_system.md R65). -/
theorem execWith_keeps_inv (hc : cfg.Admissible) (h : s.Inv cfg) (i : Instr) :
    ∃ t, execWith cfg i s = .next t ∧ t.Inv cfg := by
  by_cases he : s.err = 0
  · rcases hp : failingCode i s cfg with _ | c
    · obtain ⟨t, ht, hinv⟩ := effect_keeps_inv hc h hp
      exact ⟨t, execWith_completes he hp ht, hinv⟩
    · exact ⟨_, execWith_faults he hp, h.afterFault (failingCode_bounds hp).2⟩
  · by_cases hrun : runsWhenFaulted i = true
    · obtain ⟨t, ht, hinv⟩ := effect_keeps_inv hc h (failingCode_of_runsWhenFaulted hrun)
      exact ⟨t, by rw [execWith_eq, if_pos he, if_pos hrun, ht]; rfl, hinv⟩
    · exact ⟨_, by rw [execWith_eq, if_pos he, if_neg hrun], h.afterReject⟩

theorem State.Inv.illegal (h : s.Inv cfg) : ∃ t, s.illegal = .next t ∧ t.Inv cfg := by
  refine ⟨_, State.illegal_eq s, ?_⟩
  split
  · exact h.afterReject
  · exact h.afterFault (by decide)

/-- Every step, whatever the host gives, goes on and keeps the invariants. -/
theorem stepWith_keeps_inv (hc : cfg.Admissible) (h : s.Inv cfg) : ∃ t, stepWith cfg s = .next t ∧ t.Inv cfg := by
  rcases stepBy_cases (execWith cfg) s with ⟨-, hs⟩ | ⟨rest, -, hs⟩ | ⟨_, rest, i, -, -, hs⟩ | ⟨_, rest, _, -, -, hs⟩ <;>
    rw [stepWith, hs]
  · exact ⟨_, rfl, h.congr rfl rfl rfl rfl h.err⟩
  · exact ⟨_, rfl, State.Inv.reset rest⟩
  · exact execWith_keeps_inv hc (h.taken rest) i
  · exact (h.taken rest).illegal

/-- Settles O58: the invariants hold at reset and every step keeps them. -/
theorem everyConfigurationKeepsTheInvariants : Obligations.EveryConfigurationKeepsTheInvariants := by
  unfold Obligations.EveryConfigurationKeepsTheInvariants
  exact fun cfg hc => ⟨State.Inv.reset [], fun s h => stepWith_keeps_inv hc h⟩

/-! ## `NMAX` as the bound of the buffer commands and of `ENC` -/

/-- `LDW` (41_buffer.md R77). -/
theorem execWith_ldw_bounds (hc : cfg.Admissible) (he : s.err = 0) (j : Byte) :
    (cfg.nmax ≤ j.toNat → execWith cfg (.ldw j) s = .next (s.afterFault 2)) ∧
    (j.toNat < cfg.nmax → execWith cfg (.ldw j) s = .next (s.afterAcc (s.w.read j.toNat))) :=
  ⟨fun hj => execWith_faults he (if_pos ((indexAbove_iff hc j).2 hj)),
    fun hj => execWith_completes he (if_neg (mt (indexAbove_iff hc j).1 (not_le.2 hj))) rfl⟩

/-- `PUSH` (41_buffer.md R76). -/
theorem execWith_push_bounds (he : s.err = 0) (hw : s.w.wf cfg = true) (hd : s.done = false) (b : Byte) :
    (s.dlen.toNat = cfg.nmax → execWith cfg (.push b) s = .next (s.afterFault 4)) ∧
    (s.dlen.toNat < cfg.nmax → ∃ w : Memory, w.wf cfg = true ∧
      (∀ a, w.read a = if a = s.dlen.toNat then b else s.w.read a) ∧
      execWith cfg (.push b) s = .next { s with w := w, dlen := s.dlen + 1, rsp := some (s.responseWord 0) }) := by
  refine ⟨fun hl => execWith_faults he ?_, fun hl => ⟨s.w.write s.dlen.toNat b, Memory.wf_write hw hl b,
    Memory.read_write hw _ b, execWith_completes he ?_ rfl⟩⟩
  · simp [failingCode, hd, hl]
  · simp [failingCode, hd, hl.ne]

/-- `STW` (41_buffer.md R78). -/
theorem execWith_stw_bounds (hc : cfg.Admissible) (he : s.err = 0) (hw : s.w.wf cfg = true) (hd : s.done = false) (j : Byte) :
    (cfg.nmax ≤ j.toNat → execWith cfg (.stw j) s = .next (s.afterFault 2)) ∧
    (j.toNat < cfg.nmax → ∃ w : Memory, w.wf cfg = true ∧
      (∀ a, w.read a = if a = j.toNat then s.acc else s.w.read a) ∧
      execWith cfg (.stw j) s = .next { s with w := w, rsp := some (s.responseWord 0) }) := by
  have hcode : failingCode (.stw j) s cfg = if cfg.nmax ≤ j.toNat then some 2 else none := by
    simp only [failingCode, hd, Bool.false_eq_true, if_false, indexAbove_iff hc j]
  exact ⟨fun hj => execWith_faults he (hcode.trans (if_pos hj)), fun hj => ⟨s.w.write j.toNat s.acc,
    Memory.wf_write hw hj _, Memory.read_write hw _ _, execWith_completes he (hcode.trans (if_neg (not_le.2 hj))) rfl⟩⟩

/-- `ENC` (43_poly.md R106). -/
theorem execWith_enc_bounds (hc : cfg.Admissible) (he : s.err = 0) (hd : s.done = false) (hl : s.dlen ≠ 0)
    (hr : degreeHeld s.rlen.toNat) :
    (cfg.nmax < s.dlen.toNat + s.rlen.toNat → execWith cfg .enc s = .next (s.afterFault 2)) ∧
    (s.dlen.toNat + s.rlen.toNat ≤ cfg.nmax → ∃ terms, genRow s.rlen.toNat cfg = some terms ∧
      execWith cfg .enc s = .next { s with
        w := (Memory.divStep terms)^[s.dlen.toNat] s.w, done := true, rsp := some 0x6000 }) := by
  have hr0 : s.rlen ≠ 0 := State.rlen_ne_zero hr
  have hcode : failingCode .enc s cfg = if cfg.nmax < s.dlen.toNat + s.rlen.toNat then some 2 else none := by
    simp only [failingCode, hd, Bool.false_eq_true, if_false, if_neg hl, if_neg hr0]
  refine ⟨fun hlong => execWith_faults he (hcode.trans (if_pos hlong)), fun hfit => ?_⟩
  obtain ⟨terms, ht, -⟩ := hc.row hr
  refine ⟨terms, ht, execWith_completes he (hcode.trans (if_neg (not_lt.2 hfit))) ?_⟩
  have hrsp : State.responseWord { s with w := s.w.divSteps terms s.dlen.toNat, done := true } 0 = 0x6000 :=
    State.responseWord_finished he rfl hr0
  rw [effect, ht, Option.map_some, State.afterAnswer, hrsp, Memory.divSteps_eq_iterate]

/-- Settles O59: each command's bound is its own lemma above. -/
theorem nmaxSetsTheBounds : Obligations.NmaxSetsTheBounds := by
  unfold Obligations.NmaxSetsTheBounds
  exact fun cfg s hc he hw => ⟨execWith_ldw_bounds hc he, fun hd => execWith_push_bounds he hw hd,
    fun hd => execWith_stw_bounds hc he hw hd, fun hd hl hr => execWith_enc_bounds hc he hd hl hr⟩

/-! ## The stated configuration -/

theorem step_eq_stepWith (s : State) : step s = stepWith Config.stated s :=
  congrArg (stepBy · s) (funext₂ exec_eq_execWith)

/-- Settles O57: the commands agree one by one, and so does the step built on them. -/
theorem execIsTheMachineAtTheStatedConfiguration : Obligations.ExecIsTheMachineAtTheStatedConfiguration := by
  unfold Obligations.ExecIsTheMachineAtTheStatedConfiguration
  exact ⟨exec_eq_execWith, step_eq_stepWith, rfl, rfl, Config.stated_admissible⟩

end Sys2Proof.Machine
end

section
/-! # Proofs about the state: who writes each register, and what every step keeps (10_state.md R11 to R24) -/

namespace Sys2Proof.Machine

variable {cfg : Config} {s t : State} {i : Instr}

/-! ## What a command leaves, its checks passed or not -/

/-- A command that is rejected or faults writes only `ERR` and its response; any other has passed its checks and completes
(60_exceptions.md R122 to R124). -/
theorem exec_stands_or_completes (h : exec i s = .next t) :
    (∃ e r, t = { s with err := e, rsp := r }) ∨
    ((s.err = 0 ∨ runsWhenFaulted i = true) ∧ failingCode i s = none ∧ effect i s = some t) := by
  rcases exec_next h with ⟨-, -, rfl⟩ | ⟨c, -, -, rfl⟩ | ⟨⟨-, hrun⟩ | ⟨he, hp⟩, ht⟩
  · exact .inl ⟨_, _, rfl⟩
  · exact .inl ⟨_, _, rfl⟩
  · exact .inr ⟨.inr hrun, failingCode_of_runsWhenFaulted hrun, ht⟩
  · exact .inr ⟨.inl he, hp, ht⟩

/-- `CLR` completes in every state (40_system.md R67). -/
theorem exec_clr_next (h : exec .clr s = .next t) : t = s.cleared.afterAnswer 0 := (Host.Outcome.next.inj h).symm

theorem failingCode_of_frozen (hd : s.done = true) (hf : frozenByDone i = true) : failingCode i s cfg = some 5 := by
  cases i with
  | setr | push | stw | shl | macg | step | enc => exact if_pos hd
  | _ => cases hf

theorem writesBuffer_of_not_frozen (hf : frozenByDone i = false) (hclr : i ≠ .clr) : writesBuffer i = false := by
  cases i with
  | clr => exact absurd rfl hclr
  | push | stw | shl | macg | step | enc => cases hf
  | _ => rfl

theorem writesBuffer_of_runsWhenFaulted (hrun : runsWhenFaulted i = true) (hclr : i ≠ .clr) : writesBuffer i = false := by
  cases i with
  | clr => exact absurd rfl hclr
  | nop | rdreg => rfl
  | _ => cases hrun

/-- The commands that `DONE` does not freeze leave the block but for `ACC` (10_state.md R15). -/
theorem effect_of_not_frozen (ht : effect i s cfg = some t) (hf : frozenByDone i = false) (hclr : i ≠ .clr) :
    t.w = s.w ∧ t.rlen = s.rlen ∧ t.dlen = s.dlen ∧ t.done = s.done := by
  obtain ⟨-, -, -, hw, hr, hl, hd, -, -⟩ := effect_frame ht
  refine ⟨hw (writesBuffer_of_not_frozen hf hclr), ?_, ?_, ?_⟩
  · rcases hr with hr | ⟨rfl, -⟩ | ⟨r, rfl, -⟩
    exacts [hr, absurd rfl hclr, nomatch hf]
  · rcases hl with hl | ⟨rfl, -⟩ | ⟨b, rfl, -⟩
    exacts [hl, absurd rfl hclr, nomatch hf]
  · rcases hd with hd | ⟨rfl, -⟩ | ⟨rfl, -⟩
    exacts [hd, absurd rfl hclr, nomatch hf]

/-- The checks of `SETR` (40_system.md R69). -/
theorem setr_checks {r : Byte} (hp : failingCode (.setr r) s cfg = none) : s.done = false ∧ degreeHeld r.toNat := by
  simp only [failingCode, check_eq_none, Bool.not_eq_true, and_true] at hp
  obtain ⟨hd, hr⟩ := hp
  exact ⟨hd, not_lt.1 fun h7 => hr (.inl h7), not_lt.1 fun h68 => hr (.inr h68)⟩

/-- The checks of `PUSH` (41_buffer.md R76). -/
theorem push_checks {b : Byte} (hp : failingCode (.push b) s cfg = none) : s.done = false ∧ s.dlen.toNat ≠ cfg.nmax := by
  simpa only [failingCode, check_eq_none, Bool.not_eq_true, and_true] using hp

/-- The checks of `ENC` (43_poly.md R106). -/
theorem enc_checks (hp : failingCode .enc s cfg = none) :
    s.done = false ∧ s.dlen ≠ 0 ∧ s.rlen ≠ 0 ∧ s.dlen.toNat + s.rlen.toNat ≤ cfg.nmax := by
  simpa only [failingCode, check_eq_none, Bool.not_eq_true, and_true, not_lt] using hp

/-- The seven bits of `RLEN` hold every degree in range (10_state.md R13). -/
theorem setWidth_toNat_of_degreeHeld {r : Byte} (hr : degreeHeld r.toNat) : (r.setWidth 7).toNat = r.toNat := by
  obtain ⟨-, h68⟩ := degreeHeld_bounds hr
  rw [BitVec.toNat_setWidth, Nat.mod_eq_of_lt (by omega)]

/-- `DLEN` counts up to 255 without wrapping (10_state.md R14). -/
theorem toNat_add_one_of_lt {d : Byte} (hd : d.toNat < 255) : (d + 1).toNat = d.toNat + 1 := by bv_omega

/-! ## The invariants of R24 (a) to (d) at the stated configuration -/

/-- Settles O11, by the same for every admissible configuration. -/
theorem everyStepKeepsTheInvariants : Obligations.EveryStepKeepsTheInvariants := by
  unfold Obligations.EveryStepKeepsTheInvariants
  intro s t h hst
  obtain ⟨u, hu, hinv⟩ := stepWith_keeps_inv Config.stated_admissible h
  rw [step_eq_stepWith, hu, Host.Outcome.next.injEq] at hst
  exact hst ▸ hinv

theorem exec_keeps_inv (h : s.Inv) (ht : exec i s = .next t) : t.Inv := by
  obtain ⟨u, hu, hinv⟩ := execWith_keeps_inv Config.stated_admissible h i
  rw [exec_eq_execWith, hu, Host.Outcome.next.injEq] at ht
  exact ht ▸ hinv

/-! ## The zero tail, R24 (e) and (f) -/

/-- Every entry from index `n` on is 0. -/
def Memory.ZeroFrom (n : Nat) (m : Memory) : Prop := ∀ j, n ≤ j → m.read j = 0

namespace Memory

theorem ZeroFrom.mono {n k : Nat} {m : Memory} (h : m.ZeroFrom n) (hnk : n ≤ k) : m.ZeroFrom k :=
  fun j hj => h j (hnk.trans hj)

theorem zeroFrom_nil (n : Nat) : Memory.ZeroFrom n [] := fun _ _ => rfl

/-- A byte written at the end of the data ends one index further (41_buffer.md R76). -/
theorem ZeroFrom.write {n : Nat} {m : Memory} (h : m.ZeroFrom n) (hw : m.wf cfg = true) (v : Byte) :
    Memory.ZeroFrom (n + 1) (m.write n v) := by
  intro j hj
  rw [read_write hw, if_neg (by omega), h j (by omega)]

/-- The scaled terms end with the last one (43_poly.md R101). -/
theorem added_above (e : Byte) {terms : List Byte} {j : Nat} (hj : terms.length < j) : Memory.added e 0 terms j = 0 := by
  rw [added, if_pos (by omega), List.getElem?_eq_none (by omega)]

/-- One division iteration moves the tail one index down, but not below the terms it adds (43_poly.md R101). -/
theorem ZeroFrom.divStep {terms : List Byte} {n : Nat} {m : Memory} (h : m.ZeroFrom (max (n + 1) terms.length))
    (hw : m.wf cfg = true) (hl : terms.length < cfg.nmax) : (m.divStep terms).ZeroFrom (max n terms.length) := by
  intro j hj
  have hterm : (if m.read 0 = 0 then 0 else Memory.added (log (m.read 0)) 0 terms (j + 1)) = 0 := by
    rw [added_above _ (by omega), ite_self]
  rw [read_divStep hw hl, hterm, h (j + 1) (by omega)]
  rfl

/-- As many iterations as there are data bytes leave the result alone (43_poly.md R106, R107). -/
theorem ZeroFrom.divSteps {terms : List Byte} (hl : terms.length < cfg.nmax) :
    ∀ (n : Nat) (m : Memory), m.wf cfg = true → m.ZeroFrom (max n terms.length) → (m.divSteps terms n).ZeroFrom terms.length
  | 0, _, _, h => h.mono (by omega)
  | n + 1, _, hw, h => ZeroFrom.divSteps hl n _ (wf_divStep hw hl) (h.divStep hw hl)

end Memory

namespace State.ZeroTail

/-- Before `ENC` the tail stands above the data (10_state.md R24 (e)). -/
theorem of_open (hd : s.done = false) (h : s.w.ZeroFrom s.dlen.toNat) : s.ZeroTail where
  data _ := h
  result h1 := absurd (hd.symm.trans h1) nofun

/-- After `ENC` the tail stands above the result (10_state.md R24 (f)). -/
theorem of_finished (hd : s.done = true) (h : s.w.ZeroFrom s.rlen.toNat) : s.ZeroTail where
  data h0 := absurd (hd.symm.trans h0) nofun
  result _ := h

theorem of_empty (hd : s.done = false) (hw : s.w = []) : s.ZeroTail := of_open hd (hw ▸ Memory.zeroFrom_nil _)

theorem congr (h : s.ZeroTail) (hw : t.w = s.w) (hr : t.rlen = s.rlen) (hl : t.dlen = s.dlen) (hd : t.done = s.done) :
    t.ZeroTail where
  data := by rw [hd, hw, hl]; exact h.data
  result := by rw [hd, hw, hr]; exact h.result

end State.ZeroTail

/-- A command that is not raw and completes keeps the zero tail: of the commands that `DONE` freezes, `SETR` leaves `W` and
`DLEN`, `PUSH` writes the entry at `DLEN`, and `ENC` turns the data into the result. -/
theorem effect_keeps_zeroTail (hc : cfg.Admissible) (hinv : s.Inv cfg) (h : s.ZeroTail) (hraw : isRaw i = false)
    (hp : failingCode i s cfg = none) (ht : effect i s cfg = some t) : t.ZeroTail := by
  cases i with
  | clr =>
    obtain rfl := Option.some.inj ht
    exact .of_empty rfl rfl
  | setr r =>
    obtain ⟨hd, -⟩ := setr_checks hp
    obtain rfl := Option.some.inj ht
    exact .of_open hd (h.data hd)
  | push b =>
    obtain ⟨hd, hfull⟩ := push_checks hp
    obtain rfl := Option.some.inj ht
    have hdlen : (s.dlen + 1).toNat = s.dlen.toNat + 1 :=
      toNat_add_one_of_lt ((lt_of_le_of_ne hinv.dlen hfull).trans_le hc.nmax_le)
    refine .of_open hd ?_
    show Memory.ZeroFrom (s.dlen + 1).toNat (s.w.write s.dlen.toNat b)
    rw [hdlen]
    exact Memory.ZeroFrom.write (h.data hd) hinv.buffer b
  | enc =>
    obtain ⟨hd, -, hr, -⟩ := enc_checks hp
    obtain ⟨terms, hrow, hlen, hl⟩ := hinv.row hc hr
    rw [effect, hrow] at ht
    obtain rfl := Option.some.inj ht
    refine .of_finished rfl ?_
    show (s.w.divSteps terms s.dlen.toNat).ZeroFrom s.rlen.toNat
    rw [← hlen]
    exact Memory.ZeroFrom.divSteps hl _ _ hinv.buffer (Memory.ZeroFrom.mono (h.data hd) (le_max_left _ _))
  | stw | shl | macg | step => cases hraw
  | _ =>
    obtain ⟨hw, hr, hl, hd⟩ := effect_of_not_frozen ht rfl nofun
    exact h.congr hw hr hl hd

theorem exec_keeps_zeroTail (hinv : s.Inv) (h : s.ZeroTail) (hraw : isRaw i = false) (ht : exec i s = .next t) :
    t.ZeroTail := by
  rcases exec_stands_or_completes ht with ⟨_, _, rfl⟩ | ⟨-, hp, ht⟩
  · exact h.congr rfl rfl rfl rfl
  · exact effect_keeps_zeroTail Config.stated_admissible hinv h hraw hp ht

/-- An illegal word writes `ERR` and its response alone (60_exceptions.md R125). -/
theorem illegal_next (h : s.illegal = .next t) : (s.err ≠ 0 ∧ t = s.afterReject) ∨ (s.err = 0 ∧ t = s.afterFault 1) := by
  rw [State.illegal_eq, Host.Outcome.next.injEq] at h
  split at h
  · exact .inl ⟨‹_›, h.symm⟩
  · exact .inr ⟨not_not.1 ‹_›, h.symm⟩

/-- Settles O12: waiting, a reset and an illegal word keep the zero tail, and so does every command that is not raw. -/
theorem stepsWithoutRawCommandsKeepTheZeroTail : Obligations.StepsWithoutRawCommandsKeepTheZeroTail := by
  unfold Obligations.StepsWithoutRawCommandsKeepTheZeroTail
  intro s t hinv h hst hraw
  rcases step_cases s with ⟨-, hs⟩ | ⟨rest, -, hs⟩ | ⟨cmd, rest, i, hpend, hdec, hs⟩ | ⟨cmd, rest, e, -, -, hs⟩ <;> rw [hs] at hst
  · obtain rfl := Host.Outcome.next.inj hst
    exact h.congr rfl rfl rfl rfl
  · obtain rfl := Host.Outcome.next.inj hst
    exact .of_empty rfl rfl
  · exact exec_keeps_zeroTail (hinv.taken rest) (h.congr rfl rfl rfl rfl) (hraw cmd rest i hpend hdec) hst
  · rcases illegal_next hst with ⟨-, rfl⟩ | ⟨-, rfl⟩ <;> exact h.congr rfl rfl rfl rfl

/-- Settles O10: every register is 0 and the buffer is empty. -/
theorem resetMeetsTheInvariants : Obligations.ResetMeetsTheInvariants := by
  unfold Obligations.ResetMeetsTheInvariants
  exact ⟨State.Inv.reset [], .of_empty rfl rfl, Memory.read_nil⟩

/-! ## STATUS -/

/-- The bits above the lowest three of a concatenation laid out as STATUS is (10_state.md R17). -/
theorem getLsbD_flags_append (f d r : Bool) (e : BitVec 3) :
    let v := BitVec.ofBool f ++ BitVec.ofBool d ++ BitVec.ofBool r ++ (0 : BitVec 2) ++ e
    v.getLsbD 7 = f ∧ v.getLsbD 6 = d ∧ v.getLsbD 5 = r ∧ v.getLsbD 4 = false ∧ v.getLsbD 3 = false := by
  simp only [BitVec.getLsbD_append, BitVec.getLsbD_ofBool]
  simp

/-- The bits of STATUS above `ERR`, from the top (10_state.md R17). -/
theorem State.status_getLsbD (s : State) :
    s.status.getLsbD 7 = decide (s.err ≠ 0) ∧ s.status.getLsbD 6 = s.done ∧ s.status.getLsbD 5 = decide (s.rlen ≠ 0) ∧
    s.status.getLsbD 4 = false ∧ s.status.getLsbD 3 = false :=
  getLsbD_flags_append s.faultFlag s.done s.rsetFlag s.err

/-- Bits 2:0 of STATUS are `ERR` (10_state.md R16, R17). -/
theorem State.status_err (s : State) : s.status.extractLsb' 0 3 = s.err := BitVec.extractLsb'_append_eq_right

/-- Settles O13: the flags are single bits of the concatenation, and a response word is its two bytes. -/
theorem statusHasItsLayout : Obligations.StatusHasItsLayout := by
  unfold Obligations.StatusHasItsLayout
  refine ⟨fun s => ?_, by decide⟩
  obtain ⟨h7, h6, h5, h4, h3⟩ := s.status_getLsbD
  exact ⟨h7, h6, h5, h4, h3, s.status_err,
    fun data => ⟨BitVec.extractLsb'_append_eq_left, BitVec.extractLsb'_append_eq_right⟩⟩

/-! ## `ERR` (R16) -/

/-- What a command does to `ERR`: it leaves it, `CLR` clears it, or the first failing check gives its code. -/
theorem exec_err (h : exec i s = .next t) :
    t.err = s.err ∨ (i = .clr ∧ t.err = 0) ∨ (s.err = 0 ∧ failingCode i s = some t.err) := by
  rcases exec_next h with ⟨-, -, rfl⟩ | ⟨c, he, hc, rfl⟩ | ⟨-, ht⟩
  · exact .inl rfl
  · exact .inr (.inr ⟨he, hc⟩)
  · by_cases hclr : i = .clr
    · subst hclr
      rw [exec_clr_next h]
      exact .inr (.inl ⟨rfl, rfl⟩)
    · obtain ⟨-, -, herr, -⟩ := effect_frame ht
      exact .inl (herr hclr)

/-- What a step does to `ERR`: it leaves it, reset or `CLR` clears it, or a command word faults and gives its code. -/
theorem step_err (h : step s = .next t) :
    t.err = s.err ∨
    (t.err = 0 ∧ ((∃ rest, s.pending = .reset :: rest) ∨ ∃ cmd rest, s.pending = .command cmd :: rest ∧ decode cmd = .ok .clr)) ∨
    (s.err = 0 ∧ ∃ cmd rest, s.pending = .command cmd :: rest ∧
      ((∃ e, decode cmd = .error e) ∧ t.err = 1 ∨ ∃ i, decode cmd = .ok i ∧ failingCode i (s.taken rest) = some t.err)) := by
  rcases step_cases s with ⟨-, hs⟩ | ⟨rest, hpend, hs⟩ | ⟨cmd, rest, i, hpend, hdec, hs⟩ | ⟨cmd, rest, e, hpend, hdec, hs⟩ <;>
    rw [hs] at h
  · obtain rfl := Host.Outcome.next.inj h
    exact .inl rfl
  · obtain rfl := Host.Outcome.next.inj h
    exact .inr (.inl ⟨rfl, .inl ⟨rest, hpend⟩⟩)
  · rcases exec_err h with heq | ⟨rfl, h0⟩ | ⟨he, hc⟩
    · exact .inl heq
    · exact .inr (.inl ⟨h0, .inr ⟨cmd, rest, hpend, hdec⟩⟩)
    · exact .inr (.inr ⟨he, cmd, rest, hpend, .inr ⟨i, hdec, hc⟩⟩)
  · rcases illegal_next h with ⟨-, rfl⟩ | ⟨he, rfl⟩
    · exact .inl rfl
    · exact .inr (.inr ⟨he, cmd, rest, hpend, .inl ⟨⟨e, hdec⟩, rfl⟩⟩)

/-- Every code a step writes is one of the table of 60_exceptions.md R121. -/
theorem step_err_le (h : step s = .next t) (hne : t.err ≠ s.err) : t.err.toNat ≤ 6 := by
  rcases step_err h with heq | ⟨h0, -⟩ | ⟨-, _, _, -, ⟨-, h1⟩ | ⟨i, -, hc⟩⟩
  · exact absurd heq hne
  · rw [h0]; decide
  · rw [h1]; decide
  · exact (failingCode_bounds hc).2

theorem exec_rejects (he : s.err ≠ 0) (hrun : runsWhenFaulted i = false) : exec i s = .next s.afterReject := by
  rw [exec_eq, if_pos he, hrun]; rfl

/-- Settles O20, from what a step does to `ERR`. -/
theorem errHoldsTheFirstFault : Obligations.ErrHoldsTheFirstFault := by
  unfold Obligations.ErrHoldsTheFirstFault
  refine ⟨fun s t h => ⟨fun he hne => ⟨step_err_le h (he ▸ hne), ?_⟩, fun he hne => ?_, fun h7 => ?_⟩,
    fun s i => exec_rejects, State.status_err, rfl⟩
  · rcases step_err h with heq | ⟨h0, -⟩ | ⟨-, hfault⟩
    exacts [absurd (heq.trans he) hne, absurd h0 hne, hfault]
  · rcases step_err h with heq | hclears | ⟨h0, -⟩
    exacts [absurd heq hne, hclears, absurd h0 he]
  · by_contra hne
    have := step_err_le h (fun heq => hne (heq ▸ h7))
    rw [h7] at this
    exact absurd this (by decide)

/-! ## `ACC` (R11) -/

/-- No register but number 0 shows `ACC` (10_state.md R18). -/
theorem State.readReg_acc {n : Byte} (hn : n ≠ 0) (s : State) (a : Byte) :
    State.readReg { s with acc := a } n = s.readReg n := by
  rw [State.readReg_eq, State.readReg_eq, completedData, completedData, if_neg hn, if_neg hn]
  rfl

theorem failingCode_acc (hr : readsAcc i = false) (s : State) (a : Byte) :
    failingCode i { s with acc := a } = failingCode i s := by
  cases i with
  | gflog => cases hr
  | _ => rfl

/-- A command that does not read `ACC` completes alike whatever `ACC` holds. -/
theorem forgetAcc_effect (hr : readsAcc i = false) (s : State) (a : Byte) :
    forgetAcc (ofEffect (effect i { s with acc := a })) = forgetAcc (ofEffect (effect i s)) := by
  cases i with
  | gfaddi | gfmuli | gflog | gfexp | stw | macg => cases hr
  | rdreg n =>
    rw [effect, effect, State.readReg_acc (of_decide_eq_false hr)]
    cases s.readReg n <;> rfl
  | genrd k =>
    simp only [effect]
    cases genTerm s.rlen.toNat k.toNat <;> rfl
  | step | enc =>
    simp only [effect]
    cases genRow s.rlen.toNat <;> rfl
  | _ => rfl

theorem forgetAcc_exec (hr : readsAcc i = false) (s : State) (a : Byte) :
    forgetAcc (exec i { s with acc := a }) = forgetAcc (exec i s) := by
  rw [exec_eq, exec_eq, failingCode_acc hr]
  by_cases he : s.err = 0
  · rw [if_neg (not_not.2 he), if_neg (not_not.2 he)]
    cases failingCode i s with
    | none => exact forgetAcc_effect hr s a
    | some c => rfl
  · rw [if_pos he, if_pos he]
    cases runsWhenFaulted i with
    | true => exact forgetAcc_effect hr s a
    | false => rfl

theorem exec_keeps_acc (h : exec i s = .next t) (hw : writesAcc i = false) : t.acc = s.acc := by
  rcases exec_stands_or_completes h with ⟨_, _, rfl⟩ | ⟨-, -, ht⟩
  · rfl
  · obtain ⟨hacc, -⟩ := effect_frame ht
    exact hacc hw

/-- Settles O21: the writers by the frame of a command, the readers by running it with two values of `ACC`. -/
theorem accHasItsWritersAndReaders : Obligations.AccHasItsWritersAndReaders := by
  unfold Obligations.AccHasItsWritersAndReaders
  exact ⟨fun i s t => exec_keeps_acc, fun s t h => exec_clr_next h ▸ rfl, fun s rest hp => ⟨_, step_reset hp, rfl⟩,
    fun i s a hr => forgetAcc_exec hr s a, rfl⟩

/-! ## `RLEN` and `DLEN` (R13, R14) -/

theorem exec_rlen (h : exec i s = .next t) : t.rlen = s.rlen ∨ (i = .clr ∧ t.rlen = 0) ∨
    ∃ r, i = .setr r ∧ 7 ≤ r.toNat ∧ r.toNat ≤ 68 ∧ t.rlen.toNat = r.toNat := by
  rcases exec_stands_or_completes h with ⟨_, _, rfl⟩ | ⟨-, hp, ht⟩
  · exact .inl rfl
  · obtain ⟨-, -, -, -, hr, -⟩ := effect_frame ht
    rcases hr with hr | hclr | ⟨r, rfl, hr⟩
    · exact .inl hr
    · exact .inr (.inl hclr)
    · obtain ⟨-, hheld⟩ := setr_checks hp
      exact .inr (.inr ⟨r, rfl, hheld.1, hheld.2, hr ▸ setWidth_toNat_of_degreeHeld hheld⟩)

theorem exec_dlen (h : exec i s = .next t) : t.dlen = s.dlen ∨ (i = .clr ∧ t.dlen = 0) ∨
    ∃ b, i = .push b ∧ s.dlen.toNat < 255 ∧ t.dlen.toNat = s.dlen.toNat + 1 := by
  rcases exec_stands_or_completes h with ⟨_, _, rfl⟩ | ⟨-, hp, ht⟩
  · exact .inl rfl
  · obtain ⟨-, -, -, -, -, hl, -⟩ := effect_frame ht
    rcases hl with hl | hclr | ⟨b, rfl, hl⟩
    · exact .inl hl
    · exact .inr (.inl hclr)
    · obtain ⟨-, hfull⟩ := push_checks hp
      have hlt : s.dlen.toNat < 255 := lt_of_le_of_ne (Nat.le_of_lt_succ s.dlen.isLt) hfull
      exact .inr (.inr ⟨b, rfl, hlt, hl ▸ toNat_add_one_of_lt hlt⟩)

/-- Settles O22. -/
theorem rlenAndDlenHaveTheirWriters : Obligations.RlenAndDlenHaveTheirWriters := by
  unfold Obligations.RlenAndDlenHaveTheirWriters
  refine fun i s t h => ⟨exec_rlen h, exec_dlen h, ?_⟩
  rintro rfl
  rw [exec_clr_next h]
  exact ⟨rfl, rfl⟩

/-! ## `DONE` (R15) -/

theorem exec_frozen (he : s.err = 0) (hd : s.done = true) (hf : frozenByDone i = true) : exec i s = .next (s.afterFault 5) :=
  (exec_eq_execWith i s).trans (execWith_faults he (failingCode_of_frozen hd hf))

/-- While `DONE` is 1 a command that would write `W`, `RLEN` or `DLEN` does not pass its checks. -/
theorem exec_keeps_result (h : exec i s = .next t) (hd : s.done = true) (hclr : i ≠ .clr) :
    t.done = true ∧ t.w = s.w ∧ t.rlen = s.rlen ∧ t.dlen = s.dlen := by
  rcases exec_stands_or_completes h with ⟨_, _, rfl⟩ | ⟨-, hp, ht⟩
  · exact ⟨hd, rfl, rfl, rfl⟩
  · have hf : frozenByDone i = false := by
      by_contra hf
      rw [failingCode_of_frozen hd (by simpa using hf)] at hp
      cases hp
    obtain ⟨hw, hr, hl, hdone⟩ := effect_of_not_frozen ht hf hclr
    exact ⟨hdone.trans hd, hw, hr, hl⟩

theorem exec_sets_done (h : exec i s = .next t) (hd : s.done = false) (hd' : t.done = true) :
    i = .enc ∧ s.err = 0 ∧ failingCode .enc s = none := by
  rcases exec_stands_or_completes h with ⟨_, _, rfl⟩ | ⟨hrun, hp, ht⟩
  · exact absurd (hd.symm.trans hd') nofun
  · obtain ⟨-, -, -, -, -, -, hdone, -, -⟩ := effect_frame ht
    rcases hdone with hdone | ⟨-, hdone⟩ | ⟨rfl, -⟩
    · exact absurd ((hdone.trans hd).symm.trans hd') nofun
    · exact absurd (hdone.symm.trans hd') nofun
    · exact ⟨rfl, hrun.resolve_right nofun, hp⟩

/-- An `ENC` whose checks pass sets `DONE` (43_poly.md R106). -/
theorem exec_enc_done (h : exec .enc s = .next t) (he : s.err = 0) (hp : failingCode .enc s = none) : t.done = true := by
  rw [exec_eq, if_neg (not_not.2 he), hp] at h
  obtain ⟨terms, -, rfl⟩ := Option.map_eq_some_iff.1 (ofEffect_next h)
  rfl

/-- Settles O23. -/
theorem doneFreezesAResult : Obligations.DoneFreezesAResult := by
  unfold Obligations.DoneFreezesAResult
  refine ⟨fun i s => exec_frozen, fun i s t => exec_keeps_result, fun i s t => exec_sets_done, fun s t => exec_enc_done,
    fun s t h => exec_clr_next h ▸ rfl, fun s rest hp => ⟨_, step_reset hp, rfl⟩, fun s => ?_, rfl⟩
  obtain ⟨-, h6, -⟩ := s.status_getLsbD
  exact h6

/-! ## `W` (R20) -/

theorem exec_keeps_buffer (h : exec i s = .next t) (hw : writesBuffer i = false) : t.w = s.w := by
  rcases exec_stands_or_completes h with ⟨_, _, rfl⟩ | ⟨-, -, ht⟩
  · rfl
  · obtain ⟨-, -, -, hbuf, -⟩ := effect_frame ht
    exact hbuf hw

theorem exec_push_read {b : Byte} (hinv : s.Inv) (h : exec (.push b) s = .next t) {a : Nat} (ha : a ≠ s.dlen.toNat) :
    t.w.read a = s.w.read a := by
  rcases exec_stands_or_completes h with ⟨_, _, rfl⟩ | ⟨-, -, ht⟩
  · rfl
  · obtain rfl := Option.some.inj ht
    exact (Memory.read_write hinv.buffer _ b a).trans (if_neg ha)

theorem exec_stw_read {j : Byte} (hinv : s.Inv) (h : exec (.stw j) s = .next t) {a : Nat} (ha : a ≠ j.toNat) :
    t.w.read a = s.w.read a := by
  rcases exec_stands_or_completes h with ⟨_, _, rfl⟩ | ⟨-, -, ht⟩
  · rfl
  · obtain rfl := Option.some.inj ht
    exact (Memory.read_write hinv.buffer _ s.acc a).trans (if_neg ha)

/-- `MACG` adds the generator into entries 0 to `RLEN` (43_poly.md R104). -/
theorem exec_macg_read (hinv : s.Inv) (h : exec .macg s = .next t) {a : Nat} (ha : s.rlen.toNat < a) :
    t.w.read a = s.w.read a := by
  rcases exec_stands_or_completes h with ⟨_, _, rfl⟩ | ⟨-, hp, ht⟩
  · rfl
  · simp only [failingCode, check_eq_none] at hp
    obtain ⟨-, hr, -⟩ := hp
    obtain ⟨terms, hrow, hlen, hl⟩ := hinv.row Config.stated_admissible hr
    by_cases hacc : s.acc = 0
    · rw [effect, if_pos hacc] at ht
      obtain rfl := Option.some.inj ht
      rfl
    · rw [effect, if_neg hacc, hrow] at ht
      obtain rfl := Option.some.inj ht
      show (s.w.addScaled terms s.acc).read a = s.w.read a
      rw [Memory.read_addScaled hinv.buffer hl, if_neg (by omega), Memory.added_above _ (by omega)]
      exact BitVec.xor_zero

/-- A fault and a rejection discard every write: a command that completes leaves `ERR` nonzero only in the faulted state,
where none but `CLR` writes `W`. -/
theorem exec_keeps_buffer_of_err (h : exec i s = .next t) (herr : t.err ≠ 0) : t.w = s.w := by
  have hclr : i ≠ .clr := by
    rintro rfl
    exact herr (exec_clr_next h ▸ rfl)
  rcases exec_stands_or_completes h with ⟨_, _, rfl⟩ | ⟨hrun, -, ht⟩
  · rfl
  · obtain ⟨-, -, hkeep, hbuf, -⟩ := effect_frame ht
    have hfaulted : s.err ≠ 0 := hkeep hclr ▸ herr
    exact hbuf (writesBuffer_of_runsWhenFaulted (hrun.resolve_left hfaulted) hclr)

/-- Settles O24: each clause is its own lemma above; the last is the canonical form, which every command keeps. -/
theorem workBufferFrame : Obligations.WorkBufferFrame := by
  unfold Obligations.WorkBufferFrame
  refine fun i s t hinv h => ⟨fun hw a => by rw [exec_keeps_buffer h hw], ?_, ?_, ?_,
    fun herr a => by rw [exec_keeps_buffer_of_err h herr], ?_, fun a => Memory.read_outside (exec_keeps_inv hinv h).buffer⟩
  · rintro b rfl a ha
    exact exec_push_read hinv h ha
  · rintro j rfl a ha
    exact exec_stw_read hinv h ha
  · rintro rfl a ha
    exact exec_macg_read hinv h ha
  · rintro rfl a
    rw [exec_clr_next h]; rfl

end Sys2Proof.Machine
end

section
/-! # Proofs about memory: what a read leaves, and the three ROMs (20_memory.md R34, R43 to R47) -/

namespace Sys2Proof.Machine

variable {s t : State} {i : Instr}

/-! ## Reads (R34) -/

/-- The commands that read the same when repeated (20_memory.md R34): `GFLOG` and `GFEXP` write the `ACC` they read, so they
are not among them. -/
def isRepeatableRead : Instr → Bool
  | .ldw _ | .rdrs _ | .rdreg _ | .genrd _ => true
  | _ => false

/-- A command that may run and passes its checks completes with its effect. -/
theorem exec_completes (hrun : s.err = 0 ∨ runsWhenFaulted i = true) (hp : failingCode i s = none) (ht : effect i s = some t) :
    exec i s = .next t := by
  rw [exec_eq, hp, ht]
  by_cases he : s.err = 0
  · rw [if_neg (not_not.2 he)]; rfl
  · rw [if_pos he, if_pos (hrun.resolve_left he)]; rfl

theorem exec_keeps_pending (h : exec i s = .next t) : t.pending = s.pending := by
  rcases exec_stands_or_completes h with ⟨_, _, rfl⟩ | ⟨-, -, ht⟩
  · rfl
  · obtain ⟨-, hpend, -⟩ := effect_frame ht
    exact hpend

/-- A command that `DONE` does not freeze leaves the block but for `ACC` and `ERR`, whether it completes or not. -/
theorem exec_of_not_frozen (h : exec i s = .next t) (hf : frozenByDone i = false) (hclr : i ≠ .clr) :
    t.w = s.w ∧ t.rlen = s.rlen ∧ t.dlen = s.dlen ∧ t.done = s.done := by
  rcases exec_stands_or_completes h with ⟨_, _, rfl⟩ | ⟨-, -, ht⟩
  · exact ⟨rfl, rfl, rfl, rfl⟩
  · exact effect_of_not_frozen ht hf hclr

theorem exec_keeps_err (h : exec i s = .next t) (hclr : i ≠ .clr) (hc : failingCode i s = none ∨ s.err ≠ 0) :
    t.err = s.err := by
  rcases exec_err h with heq | ⟨rfl, -⟩ | ⟨he, hcode⟩
  · exact heq
  · exact absurd rfl hclr
  · rcases hc with hnone | hne
    · exact absurd (hnone.symm.trans hcode) nofun
    · exact absurd he hne

theorem State.readReg_afterAnswer (s : State) (n v : Byte) : (s.afterAnswer v).readReg n = s.readReg n := by
  rw [State.readReg_eq, State.readReg_eq]; rfl

/-- A repeatable read that has completed finds its checks and its effect as before: it writes nothing that it reads. -/
theorem effect_idem (hr : isRepeatableRead i = true) (ht : effect i s = some t) :
    t.err = s.err ∧ failingCode i t = failingCode i s ∧ effect i t = some t := by
  cases i with
  | ldw | rdrs =>
    obtain rfl := Option.some.inj ht
    exact ⟨rfl, rfl, rfl⟩
  | rdreg n =>
    obtain ⟨v, hv, rfl⟩ := Option.map_eq_some_iff.1 ht
    exact ⟨rfl, rfl, Option.map_eq_some_iff.2 ⟨v, (s.readReg_afterAnswer n v).trans hv, rfl⟩⟩
  | genrd k =>
    obtain ⟨v, hv, rfl⟩ := Option.map_eq_some_iff.1 ht
    exact ⟨rfl, rfl, Option.map_eq_some_iff.2 ⟨v, hv, rfl⟩⟩
  | _ => cases hr

/-- A command word rejected in the faulted state is rejected again, with the same response (60_exceptions.md R124). -/
theorem exec_afterReject (he : s.err ≠ 0) (hrun : runsWhenFaulted i = false) : exec i s.afterReject = .next s.afterReject :=
  exec_rejects (s := s.afterReject) he hrun

/-- A command that faulted is rejected when repeated, with the response of its fault (60_exceptions.md R123, R124). -/
theorem exec_afterFault {c : BitVec 3} (hc : failingCode i s = some c) : exec i (s.afterFault c) = .next (s.afterFault c) := by
  obtain ⟨hne, -⟩ := failingCode_bounds hc
  have hrun : runsWhenFaulted i = false := by
    by_contra hrun
    rw [failingCode_of_runsWhenFaulted (by simpa using hrun)] at hc
    cases hc
  exact exec_rejects (s := s.afterFault c) hne hrun

/-- A repeatable read leaves a state in which it changes nothing at all, whether it was rejected, faulted or completed. -/
theorem exec_idem (hr : isRepeatableRead i = true) (h : exec i s = .next t) : exec i t = .next t := by
  rcases exec_next h with ⟨he, hrun, rfl⟩ | ⟨c, -, hc, rfl⟩ | ⟨hrun, ht⟩
  · exact exec_afterReject he hrun
  · exact exec_afterFault hc
  · obtain ⟨herr, hcode, hagain⟩ := effect_idem hr ht
    rcases hrun with ⟨-, hrun⟩ | ⟨he, hp⟩
    · exact exec_completes (.inr hrun) (failingCode_of_runsWhenFaulted hrun) hagain
    · exact exec_completes (.inl (herr.trans he)) (hcode.trans hp) hagain

/-- Settles O25: the frame of the commands that `DONE` does not freeze, and that a repeated read changes nothing. -/
theorem readsHaveNoSideEffect : Obligations.ReadsHaveNoSideEffect := by
  unfold Obligations.ReadsHaveNoSideEffect
  constructor
  · intro i s t h hread
    have hclr : i ≠ .clr := by rintro rfl; simp at hread
    have hf : frozenByDone i = false := by
      obtain ⟨x, rfl | rfl | rfl | rfl | rfl | rfl⟩ := hread <;> rfl
    obtain ⟨hw, hr, hl, hd⟩ := exec_of_not_frozen h hf hclr
    exact ⟨hw, hr, hl, hd, exec_keeps_pending h, exec_keeps_acc h, exec_keeps_err h hclr⟩
  · intro i s t u h h' hread
    have hr : isRepeatableRead i = true := by
      obtain ⟨x, rfl | rfl | rfl | rfl⟩ := hread <;> rfl
    rw [exec_idem hr h, Host.Outcome.next.injEq] at h'
    exact h' ▸ rfl

/-! ## LOG and EXP (R43, R44, R47) -/

theorem antilog_eq_getElem {e : Nat} (he : e < expTable.length) : antilog e = expTable[e] := by
  have h255 : e % 255 = e := Nat.mod_eq_of_lt (expTable_length ▸ he)
  simp only [antilog, h255]

theorem antilog_mod (n : Nat) : antilog (n % 255) = antilog n := by
  simp only [antilog, Nat.mod_mod]

/-- Each entry of `EXP` is the `xtime` of the one before it (20_memory.md R44). -/
theorem expTable_tail : expTable.tail = expTable.dropLast.map xtime := by decide +kernel

/-- `LOG` numbers the entries of `EXP` in order (20_memory.md R47). -/
theorem expTable_map_log : expTable.map (fun v => (log v).toNat) = List.range 255 := by decide +kernel

theorem zero_notMem_expTable : 0 ∉ expTable := by decide +kernel

theorem antilog_ne_zero (n : Nat) : antilog n ≠ 0 :=
  fun h => zero_notMem_expTable (h ▸ List.getElem_mem _)

theorem antilog_succ {e : Nat} (he : e < 254) : antilog (e + 1) = xtime (antilog e) := by
  have hlen := expTable_length
  have hnext := List.getElem_of_eq expTable_tail (i := e) (by rw [List.length_tail]; omega)
  rw [List.getElem_tail, List.getElem_map, List.getElem_dropLast] at hnext
  rw [antilog_eq_getElem (by omega), antilog_eq_getElem (by omega), hnext]

/-- `LOG[EXP[e]] = e` (20_memory.md R47). -/
theorem log_antilog {e : Nat} (he : e ≤ 254) : (log (antilog e)).toNat = e := by
  have hlt : e < expTable.length := (Nat.lt_succ_of_le he).trans_eq expTable_length.symm
  have hlog := List.getElem_of_eq expTable_map_log (i := e) (by rwa [List.length_map])
  rw [List.getElem_map, List.getElem_range] at hlog
  rw [antilog_eq_getElem hlt, hlog]

/-- `LOG` tells the entries of `EXP` apart, so the 255 of them are all the nonzero bytes. -/
theorem mem_expTable {a : Byte} (ha : a ≠ 0) : a ∈ expTable := by
  have hnodup : (0 :: expTable).Nodup :=
    List.nodup_cons.2 ⟨zero_notMem_expTable, .of_map _ (expTable_map_log ▸ List.nodup_range)⟩
  have hall : (0 :: expTable).toFinset = Finset.univ := by
    refine Finset.eq_univ_of_card _ ((List.toFinset_card_of_nodup hnodup).trans ?_)
    rw [List.length_cons, expTable_length, ← FinEnum.card_eq_fintypeCard, FinEnum.card_bitVec]
    decide
  have hmem : a ∈ (0 :: expTable).toFinset := hall ▸ Finset.mem_univ a
  exact (List.mem_cons.1 (List.mem_toFinset.1 hmem)).resolve_left ha

theorem exists_antilog_eq {a : Byte} (ha : a ≠ 0) : ∃ e ≤ 254, antilog e = a := by
  obtain ⟨e, he, rfl⟩ := List.getElem_of_mem (mem_expTable ha)
  exact ⟨e, Nat.le_of_lt_succ (he.trans_eq expTable_length), antilog_eq_getElem he⟩

/-- `EXP[LOG[a]] = a` for a nonzero `a` (20_memory.md R47 (a)). -/
theorem antilog_log {a : Byte} (ha : a ≠ 0) : (log a).toNat ≤ 254 ∧ antilog (log a).toNat = a := by
  obtain ⟨e, he, rfl⟩ := exists_antilog_eq ha
  rw [log_antilog he]
  exact ⟨he, rfl⟩

/-- Settles O48: `EXP` is a chain of `xtime` from 1 to 1, `LOG` numbers its entries, and these are all the nonzero bytes. -/
theorem logAndExpAreInverse : Obligations.LogAndExpAreInverse := by
  unfold Obligations.LogAndExpAreInverse
  exact ⟨rfl, fun e => antilog_succ, by decide +kernel, fun a => antilog_log,
    fun e he => ⟨log_antilog he, antilog_ne_zero e⟩, by decide +kernel⟩

/-! ## GEN (R45, R46) -/

theorem log_antilog_mod (n : Nat) : (log (antilog n)).toNat = n % 255 := by
  rw [← antilog_mod, log_antilog (Nat.le_of_lt_succ (Nat.mod_lt n (by decide)))]

/-- Powers of `ALPHA` multiply by adding their exponents (42_gf.md R86). -/
theorem gfmul_antilog (m n : Nat) : gfmul (antilog m) (antilog n) = antilog (m + n) := by
  have hne : ¬ (antilog m = 0 ∨ antilog n = 0) := fun h => h.elim (antilog_ne_zero m) (antilog_ne_zero n)
  rw [gfmul, if_neg hne, log_antilog_mod, log_antilog_mod, ← antilog_mod, ← Nat.add_mod, antilog_mod]

theorem gfmul_one (a : Byte) : gfmul a 1 = a := by
  by_cases ha : a = 0
  · rw [gfmul, if_pos (.inl ha), ha]
  · obtain ⟨e, -, rfl⟩ := exists_antilog_eq ha
    exact gfmul_antilog e 0

/-- What a leading coefficient adds to the next one in a product by `x + a`. -/
theorem xorPrefix_singleton_zipWith {p : List Byte} (hp : p ≠ []) (c : Byte) (q : List Byte) :
    xorPrefix [c] (List.zipWith (· ^^^ ·) p (0 :: q)) = List.zipWith (· ^^^ ·) p (c :: q) := by
  obtain ⟨x, xs, rfl⟩ := List.exists_cons_of_ne_nil hp
  simp [xorPrefix, BitVec.xor_comm]

/-- A product by `x + a` adds to each coefficient `a` times the one above it. -/
theorem polyMul_linear (p : List Byte) (a : Byte) :
    polyMul p [1, a] = List.zipWith (· ^^^ ·) (p ++ [0]) (0 :: p.map fun c => gfmul c a) := by
  induction p with
  | nil => rfl
  | cons c p ih =>
    calc polyMul (c :: p) [1, a]
        = xorPrefix [gfmul c 1, gfmul c a] (0 :: polyMul p [1, a]) := rfl
      _ = (c ^^^ 0) :: xorPrefix [gfmul c a] (polyMul p [1, a]) := by rw [gfmul_one]; rfl
      _ = (c ^^^ 0) :: List.zipWith (· ^^^ ·) (p ++ [0]) (gfmul c a :: p.map fun c => gfmul c a) := by
        rw [ih, xorPrefix_singleton_zipWith (List.append_ne_nil_of_right_ne_nil p (List.cons_ne_nil 0 []))]

/-- The row after `row` holds the product of its polynomial by `x + ALPHA^r`, `r` being the degree of `row`, in the powers
that `exp` gives (20_memory.md R46). -/
abbrev RowFollows (exp : Nat → Byte) (row next : List Byte) : Prop :=
  next.map (fun g => exp g.toNat) =
    List.zipWith (· ^^^ ·) (row.map (fun g => exp g.toNat) ++ [0]) ((0 :: row).map fun g => exp (g.toNat + row.length))

theorem polyMul_row {row next : List Byte} (h : RowFollows antilog row next) :
    polyMul (1 :: termCoefficients row) [1, antilog row.length] = 1 :: termCoefficients next := by
  have hscaled : (1 :: termCoefficients row).map (fun c => gfmul c (antilog row.length)) =
      (0 :: row).map fun g => antilog (g.toNat + row.length) := by
    have hpowers : 1 :: termCoefficients row = (0 :: row).map fun g => antilog g.toNat := rfl
    simp only [hpowers, List.map_map, Function.comp_def, gfmul_antilog]
  rw [polyMul_linear, hscaled]
  exact congrArg (1 :: ·) h.symm

/-! The check of the whole table reads `EXP` some thousand times. So that it stays cheap the entries of `EXP` are taken as the
digits of one number. -/

/-- `EXP` as one number, base 256. -/
def packedExp : Nat := Nat.ofDigits 256 (expTable.map BitVec.toNat)

/-- `EXP[n mod 255]`, as a digit of `packedExp`. -/
def unpackExp (n : Nat) : Byte := BitVec.ofNat 8 (packedExp / 256 ^ (n % 255))

theorem ofDigits_div_pow_mod {b : Nat} {L : List Nat} (hb : 0 < b) (hL : ∀ l ∈ L, l < b) {i : Nat} (hi : i < L.length) :
    Nat.ofDigits b L / b ^ i % b = L[i] := by
  rw [Nat.ofDigits_div_pow_eq_ofDigits_drop i hb L hL, List.drop_eq_getElem_cons hi, Nat.ofDigits_cons,
    Nat.add_mul_mod_self_left, Nat.mod_eq_of_lt (hL _ (List.getElem_mem hi))]

theorem antilog_eq_unpackExp : antilog = unpackExp := by
  funext n
  have hlt : n % 255 < (expTable.map BitVec.toNat).length := by
    rw [List.length_map, expTable_length]; exact Nat.mod_lt n (by decide)
  have hbyte : ∀ l ∈ expTable.map BitVec.toNat, l < 256 := by
    intro l hl
    obtain ⟨v, -, rfl⟩ := List.mem_map.1 hl
    exact v.isLt
  exact BitVec.eq_of_toNat_eq ((List.getElem_map _).symm.trans (ofDigits_div_pow_mod (by decide) hbyte hlt).symm)

/-- Each row of `GEN` follows the one before it. -/
theorem genTable_isChain_rowFollows : genTable.IsChain (RowFollows antilog) := by
  rw [antilog_eq_unpackExp]; decide +kernel

/-- The row of the smallest degree, multiplied out (20_memory.md R46). -/
theorem generatorPoly_rmin : generatorPoly 7 = 1 :: termCoefficients (genTable[0]'(by rw [genTable_length]; decide)) := by
  decide +kernel

theorem genTable_row_length {n : Nat} (hn : n < genTable.length) : genTable[n].length = n + 7 := by
  have hlen := List.getElem_of_eq genTable_rows (i := n) (by rwa [List.length_map])
  rwa [List.getElem_map, List.getElem_map, List.getElem_range] at hlen

/-- Row by row from the smallest degree: each holds the polynomial of the row before it times the next root's factor. -/
theorem generatorPoly_eq_row {n : Nat} (hn : n < genTable.length) :
    generatorPoly (n + 7) = 1 :: termCoefficients genTable[n] := by
  induction n with
  | zero => exact generatorPoly_rmin
  | succ n ih =>
    have hn' : n < genTable.length := Nat.lt_of_succ_lt hn
    calc generatorPoly (n + 1 + 7)
        = polyMul (generatorPoly (n + 7)) [1, antilog (n + 7)] := by rw [Nat.add_right_comm]; rfl
      _ = polyMul (1 :: termCoefficients genTable[n]) [1, antilog genTable[n].length] := by
        rw [ih hn', genTable_row_length hn']
      _ = 1 :: termCoefficients genTable[n + 1] := polyMul_row (genTable_isChain_rowFollows.getElem n hn)

theorem genRow_eq_getElem {n : Nat} (hn : n < genTable.length) : genRow (n + 7) = some genTable[n] := by
  rw [genRow, if_pos (Nat.le_add_left 7 n)]
  exact List.getElem?_eq_getElem hn

theorem exists_row_of_degreeHeld {r : Nat} (hr : degreeHeld r) : ∃ n, n < genTable.length ∧ r = n + 7 := by
  obtain ⟨h7, h68⟩ := degreeHeld_bounds hr
  exact ⟨r - 7, by rw [genTable_length]; omega, by omega⟩

/-- The named property of 92_eei_decisions.md D31, for every degree the ROM holds. -/
theorem genHoldsGenerator_of_degreeHeld {r : Nat} (hr : degreeHeld r) : genHoldsGenerator r := by
  obtain ⟨n, hn, rfl⟩ := exists_row_of_degreeHeld hr
  exact ⟨_, genRow_eq_getElem hn, generatorPoly_eq_row hn⟩

/-- Settles O49: the rows by induction on the degree, their shape from the table. -/
theorem genHoldsTheGeneratorPolynomials : Obligations.GenHoldsTheGeneratorPolynomials := by
  unfold Obligations.GenHoldsTheGeneratorPolynomials
  refine ⟨fun r hr => ⟨genHoldsGenerator_of_degreeHeld hr, ?_⟩, fun r => genRow_absent⟩
  obtain ⟨n, hn, rfl⟩ := exists_row_of_degreeHeld hr
  exact ⟨_, genRow_eq_getElem hn, genTable_row_length hn, Config.stated_admissible.entries _ (List.getElem_mem hn)⟩

end Sys2Proof.Machine
end

section
/-! # Proofs about the encoding: the decoder and its inverse, the opcode table, the assembler, the response word
(30_encoding.md) -/

namespace Sys2Proof

open Sys2Proof.Machine

variable {cmd : Word16} {i : Instr}

/-! ## Decoding and encoding are inverse (R50 to R55) -/

/-- A word is the word of a command exactly when its two fields are the command's (30_encoding.md R50). -/
theorem encode_eq_iff : encode i = cmd ↔ opField cmd = i.opcode ∧ immField cmd = i.lowByte := by
  constructor
  · rintro rfl
    exact ⟨opField_encode i, immField_encode i⟩
  · rintro ⟨hop, himm⟩
    rw [encode, ← hop, ← himm, opField_append_immField]

theorem decode_encode (hwf : i.wellFormed = true) : decode (encode i) = .ok i := by
  unfold decode
  rw [opField_encode, immField_encode]
  cases i with
  | rdreg n => exact if_pos (of_decide_eq_true hwf)
  | _ => rfl

/-- Everything the decoder can do: the opcode is that of a format-Z command, whose low byte is tested; or that of a format-I
command, which the word is unless it is `RDREG` of a reserved number; or it is not listed (30_encoding.md R51, R52, R55). -/
theorem decode_cases (cmd : Word16) :
    (∃ i, decode cmd = decodeZ (immField cmd) i ∧ i.operand = none ∧ opField cmd = i.opcode) ∨
    (∃ i, (decode cmd = .ok i ∧ i.wellFormed = true ∨ decode cmd = .error .reservedRegister ∧ i.wellFormed = false) ∧
      i.operand = some (immField cmd) ∧ opField cmd = i.opcode) ∨
    (decode cmd = .error .unlistedOpcode ∧ opField cmd ∉ listedOpcodes) := by
  generalize hd : decode cmd = d
  unfold decode at hd
  split at hd <;> rename_i hop <;> subst hd
  case h_1 | h_2 | h_12 | h_13 | h_15 | h_16 | h_17 | h_18 =>
    exact .inl ⟨_, rfl, rfl, BitVec.eq_of_toNat_eq hop⟩
  case h_3 =>
    refine .inr (.inl ⟨.rdreg (immField cmd), ?_, rfl, BitVec.eq_of_toNat_eq hop⟩)
    by_cases hn : (immField cmd).toNat ≤ 3
    · exact .inl ⟨if_pos hn, decide_eq_true hn⟩
    · exact .inr ⟨if_neg hn, decide_eq_false hn⟩
  case h_19 =>
    refine .inr (.inr ⟨rfl, fun hmem => ?_⟩)
    -- Each listed opcode is excluded by the row of the decoder that it would have taken.
    have hnat := List.mem_map_of_mem (f := BitVec.toNat) hmem
    simp_all [listedOpcodes]
  all_goals exact .inr (.inl ⟨_, .inl ⟨rfl, rfl⟩, rfl, BitVec.eq_of_toNat_eq hop⟩)

theorem wellFormed_of_operand_eq_none (hi : i.operand = none) : i.wellFormed = true := by
  cases i with
  | rdreg => cases hi
  | _ => rfl

theorem wellFormed_and_encode_of_decode (h : decode cmd = .ok i) : i.wellFormed = true ∧ encode i = cmd := by
  rcases decode_cases cmd with ⟨k, hd, hk, hop⟩ | ⟨k, ⟨hd, hwf⟩ | ⟨hd, -⟩, hk, hop⟩ | ⟨hd, -⟩ <;> rw [hd] at h
  · obtain ⟨himm, rfl⟩ := decodeZ_ok.1 h
    exact ⟨wellFormed_of_operand_eq_none hk, encode_eq_iff.2 ⟨hop, by rw [himm, Instr.lowByte, hk]; rfl⟩⟩
  · obtain rfl := Except.ok.inj h
    exact ⟨hwf, encode_eq_iff.2 ⟨hop, by rw [Instr.lowByte, hk]; rfl⟩⟩
  · cases h
  · cases h

/-- The legal words are the words of the well-formed commands, each of its one command. -/
theorem decode_eq_ok_iff : decode cmd = .ok i ↔ i.wellFormed = true ∧ encode i = cmd :=
  ⟨wellFormed_and_encode_of_decode, fun ⟨hwf, hcmd⟩ => hcmd ▸ decode_encode hwf⟩

/-- Settles O2: the two fields of the word are the opcode and the operand. -/
theorem decodeOfEncodeIsTheCommand : Obligations.DecodeOfEncodeIsTheCommand := by
  unfold Obligations.DecodeOfEncodeIsTheCommand
  exact fun i => decode_encode

/-- Settles O3, by what the decoder can do. -/
theorem encodeOfDecodeIsTheWord : Obligations.EncodeOfDecodeIsTheWord := by
  unfold Obligations.EncodeOfDecodeIsTheWord
  exact fun cmd i => wellFormed_and_encode_of_decode

/-- Settles O1: each of the words is the encoded word of its command. -/
theorem wordsOfEveryFamilyDecode : Obligations.WordsOfEveryFamilyDecode := by
  unfold Obligations.WordsOfEveryFamilyDecode
  refine ⟨?_, ?_, ?_, ?_, ?_, ?_, ?_, ?_, ?_⟩ <;> exact decode_eq_ok_iff.2 ⟨rfl, rfl⟩

/-! ## The opcode table (R54) -/

/-- Under the mask of format I a word is its opcode (30_encoding.md R51). -/
theorem and_formatI_mask (cmd : Word16) : cmd &&& 0xFF00 = opField cmd ++ (0 : Byte) := by
  calc cmd &&& 0xFF00
      = (opField cmd ++ immField cmd) &&& (BitVec.allOnes 8 ++ (0 : Byte)) := by rw [opField_append_immField]; rfl
    _ = opField cmd ++ (0 : Byte) := by
      rw [BitVec.and_append, BitVec.and_allOnes, BitVec.ofNat_eq_ofNat, BitVec.and_zero]

/-- A format-I row selects the words of its commands (30_encoding.md R51, R54). -/
theorem selects_formatI {row : OpcodeRow} (hmask : row.maskBits = 0xFF00)
    (hmatch : row.matchBits = (row.build 0).opcode ++ (0 : Byte))
    (hbuild : ∀ imm, encode (row.build imm) = (row.build 0).opcode ++ imm) :
    row.selects cmd = true ↔ encode (row.build (immField cmd)) = cmd := by
  calc row.selects cmd = true
      ↔ opField cmd ++ (0 : Byte) = (row.build 0).opcode ++ (0 : Byte) := by
        rw [OpcodeRow.selects, decide_eq_true_iff, hmask, hmatch, and_formatI_mask]
    _ ↔ (row.build 0).opcode ++ immField cmd = opField cmd ++ immField cmd := by
      rw [BitVec.append_left_inj, BitVec.append_left_inj, eq_comm]
    _ ↔ encode (row.build (immField cmd)) = cmd := by rw [hbuild, opField_append_immField]

/-- A format-Z row selects the one word of its command (30_encoding.md R52, R54). -/
theorem selects_formatZ {row : OpcodeRow} (hmask : row.maskBits = 0xFFFF) (hbuild : row.build = fun _ => i)
    (hmatch : encode i = row.matchBits) : row.selects cmd = true ↔ encode (row.build (immField cmd)) = cmd := by
  have hall : cmd &&& 0xFFFF = cmd := BitVec.and_allOnes
  rw [OpcodeRow.selects, decide_eq_true_iff, hmask, hall, hbuild, hmatch, eq_comm]

/-- A row selects the words of the commands it builds. -/
theorem selects_iff_encode : ∀ row ∈ opcodeRows, row.selects cmd = true ↔ encode (row.build (immField cmd)) = cmd := by
  simp only [opcodeRows, List.forall_mem_cons]
  refine ⟨?nop, ?clr, ?rdreg, ?setr, ?push, ?ldw, ?stw, ?rdrs, ?gfldi, ?gfaddi, ?gfmuli, ?gflog, ?gfexp,
    ?genrd, ?shl, ?macg, ?step, ?enc, nofun⟩
  case nop | clr | gflog | gfexp | shl | macg | step | enc => exact selects_formatZ rfl rfl rfl
  all_goals exact selects_formatI rfl rfl fun _ => rfl

/-- A row admits the low bytes of the well-formed commands (30_encoding.md R55). -/
theorem legal_eq_wellFormed (imm : Byte) : ∀ row ∈ opcodeRows, row.legal imm = (row.build imm).wellFormed := by
  simp [opcodeRows, rowI, rowZ, Instr.wellFormed]

theorem mnemonic_build (imm : Byte) : ∀ row ∈ opcodeRows, (row.build imm).mnemonic = row.mnemonic := by
  simp [opcodeRows, rowI, rowZ, Instr.mnemonic]

/-- Every command has its row, which builds it from its low byte. -/
theorem exists_row_build (i : Instr) : ∃ row ∈ opcodeRows, row.build i.lowByte = i := by
  cases i <;> simp [opcodeRows, rowI, rowZ, Instr.lowByte, Instr.operand]

/-- The rows build the commands of the listed opcodes, each row of one. -/
theorem map_opcode_build (imm : Byte) : opcodeRows.map (fun row => (row.build imm).opcode) = listedOpcodes := rfl

theorem listedOpcodes_nodup : listedOpcodes.Nodup := by decide

/-- No word lies in two rows: the commands that two rows build from its low byte have different opcodes. -/
theorem opcodeRows_pairwise_disjoint :
    opcodeRows.Pairwise (fun a b => ∀ cmd, ¬ (a.selects cmd = true ∧ b.selects cmd = true)) := by
  rw [List.pairwise_iff_forall_sublist]
  rintro a b hab cmd ⟨ha, hb⟩
  have hnodup : (opcodeRows.map fun row => (row.build (immField cmd)).opcode).Nodup :=
    map_opcode_build (immField cmd) ▸ listedOpcodes_nodup
  obtain ⟨hopa, -⟩ := encode_eq_iff.1 ((selects_iff_encode a (hab.subset (by simp))).1 ha)
  obtain ⟨hopb, -⟩ := encode_eq_iff.1 ((selects_iff_encode b (hab.subset (by simp))).1 hb)
  exact List.pairwise_iff_forall_sublist.1 (List.pairwise_map.1 hnodup) hab (hopa.symm.trans hopb)

theorem decode_eq_ok_iff_row : decode cmd = .ok i ↔
    ∃ row ∈ opcodeRows, row.selects cmd = true ∧ row.legal (immField cmd) = true ∧ i = row.build (immField cmd) := by
  rw [decode_eq_ok_iff]
  constructor
  · rintro ⟨hwf, rfl⟩
    obtain ⟨row, hrow, hbuild⟩ := exists_row_build i
    have himm : row.build (immField (encode i)) = i := (congrArg row.build (immField_encode i)).trans hbuild
    exact ⟨row, hrow, (selects_iff_encode row hrow).2 (congrArg encode himm),
      by rwa [legal_eq_wellFormed _ row hrow, himm], himm.symm⟩
  · rintro ⟨row, hrow, hsel, hlegal, rfl⟩
    exact ⟨legal_eq_wellFormed _ row hrow ▸ hlegal, (selects_iff_encode row hrow).1 hsel⟩

/-- Settles O4: a row selects the words of the commands it builds, and admits the well-formed ones. -/
theorem decodeIsTheOpcodeTable : Obligations.DecodeIsTheOpcodeTable := by
  unfold Obligations.DecodeIsTheOpcodeTable
  exact ⟨fun cmd i => decode_eq_ok_iff_row, opcodeRows_pairwise_disjoint, rfl,
    fun row hrow imm => mnemonic_build imm row hrow⟩

end Sys2Proof

namespace Sys2Proof.Machine

variable {cmd : Word16} {i : Instr} {s t : State} {rest : List HostInput}

/-! ## Illegal words (R55) -/

theorem opcode_mem_listedOpcodes (i : Instr) : i.opcode ∈ listedOpcodes := by
  cases i <;> simp [Instr.opcode, listedOpcodes]

theorem opcode_mem_formatZOpcodes : i.opcode ∈ formatZOpcodes ↔ i.operand = none := by
  cases i <;> simp [Instr.opcode, Instr.operand, formatZOpcodes]

/-- The only low bytes a format-I opcode has no command for are `RDREG`'s reserved numbers (30_encoding.md R55). -/
theorem wellFormed_eq_false_iff {imm : Byte} (hi : i.operand = some imm) :
    i.wellFormed = false ↔ i.opcode = 0x02 ∧ 4 ≤ imm.toNat := by
  cases i with
  | rdreg n =>
    obtain rfl := Option.some.inj hi
    rw [Instr.wellFormed, decide_eq_false_iff_not, not_le]
    exact (and_iff_right rfl).symm
  | _ => simp [Instr.wellFormed, Instr.opcode]

/-- The three ways of being illegal, for a word with the opcode of some command. -/
theorem illegalWord_iff_of_opField (hop : opField cmd = i.opcode) :
    illegalWord cmd ↔ (i.operand = none ∧ immField cmd ≠ 0) ∨ (i.opcode = 0x02 ∧ 4 ≤ (immField cmd).toNat) := by
  change (opField cmd ∉ _ ∨ (opField cmd ∈ _ ∧ immField cmd ≠ 0) ∨ opField cmd = 0x02 ∧ _) ↔ _
  rw [hop, opcode_mem_formatZOpcodes]
  exact or_iff_right (not_not.2 (opcode_mem_listedOpcodes i))

theorem exists_decodeZ_error {imm : Byte} : (∃ e, decodeZ imm i = .error e) ↔ imm ≠ 0 := by
  unfold decodeZ
  split
  · exact iff_of_false nofun (not_not.2 ‹_›)
  · exact iff_of_true ⟨_, rfl⟩ ‹_›

/-- A word is illegal exactly when the decoder gives no command (30_encoding.md R55). -/
theorem exists_decode_error_iff (cmd : Word16) : (∃ e, decode cmd = .error e) ↔ illegalWord cmd := by
  rcases decode_cases cmd with ⟨i, hd, hi, hop⟩ | ⟨i, hd, hi, hop⟩ | ⟨hd, hop⟩
  · have h2 : i.opcode ≠ 0x02 := by
      intro h2
      exact absurd (h2 ▸ opcode_mem_formatZOpcodes.2 hi) (by decide)
    rw [illegalWord_iff_of_opField hop, hd, exists_decodeZ_error, and_iff_right hi, or_iff_left (h2 ∘ And.left)]
  · rw [illegalWord_iff_of_opField hop, ← wellFormed_eq_false_iff hi]
    rcases hd with ⟨hd, hwf⟩ | ⟨hd, hwf⟩ <;> simp [hd, hi, hwf]
  · exact iff_of_true ⟨_, hd⟩ (.inl hop)

theorem step_of_illegalWord (hp : s.pending = .command cmd :: rest) (hill : illegalWord cmd) :
    step s = (s.taken rest).illegal := by
  obtain ⟨e, he⟩ := (exists_decode_error_iff cmd).2 hill
  rw [step_command hp, runWord, he]

/-- Settles O5: the decoder's errors are the illegal words, and `NOP` is the one word that encodes it. -/
theorem illegalWordsFaultOrAreRejected : Obligations.IllegalWordsFaultOrAreRejected := by
  unfold Obligations.IllegalWordsFaultOrAreRejected
  refine ⟨exists_decode_error_iff, fun s cmd rest hp hill => ?_, ⟨rfl, listedOpcodes_nodup⟩, fun cmd => ?_,
    .inl (by decide)⟩
  · rw [step_of_illegalWord hp hill, State.illegal_eq, ite_not, State.taken_err]
  · rw [decode_eq_ok_iff]
    exact ⟨fun h => h.2.symm, fun h => ⟨rfl, h.symm⟩⟩

/-! ## The assembler (R59, R60) -/

/-- A character of a word: no blank, and none that starts a comment (30_encoding.md R59). -/
def isWordChar (c : Char) : Bool := c ≠ ';' && c ≠ ' ' && c ≠ '\t'

/-- A word of a line: at least one character, no blank, no comment (30_encoding.md R59). -/
abbrev IsWord (word : List Char) : Prop := word ≠ [] ∧ word.all isWordChar = true

variable {name arg : List Char}

theorem isWordChar_iff {c : Char} : isWordChar c = true ↔ c ≠ ';' ∧ ¬ (c = ' ' ∨ c = '\t') := by
  simp [isWordChar, and_assoc]

theorem IsWord.semicolon_notMem (hw : IsWord name) : ';' ∉ name :=
  fun h => absurd (List.all_eq_true.1 hw.2 _ h) (by decide)

/-- A line without a comment is read whole. -/
theorem stripComment_eq_self {line : List Char} (h : ';' ∉ line) : stripComment line = line := by
  induction line with
  | nil => rfl
  | cons c cs ih =>
    obtain ⟨hc, hcs⟩ := not_or.1 (List.mem_cons.not.1 h)
    rw [stripComment, if_neg (Ne.symm hc), ih hcs]

/-- The characters of a word are gathered until a blank or the end of the line. -/
theorem tokens_append {word : List Char} (hw : word.all isWordChar = true) (line read : List Char) :
    tokens (word ++ line) read = tokens line (word.reverse ++ read) := by
  induction word generalizing read with
  | nil => rfl
  | cons c cs ih =>
    obtain ⟨hc, hcs⟩ := Bool.and_eq_true_iff.1 hw
    obtain ⟨-, hblank⟩ := isWordChar_iff.1 hc
    rw [List.cons_append, tokens, if_neg hblank, ih hcs, List.reverse_cons, List.append_assoc, List.singleton_append]

theorem tokens_word (hw : IsWord name) : tokens name [] = [name] := by
  simpa [tokens, hw.1] using tokens_append hw.2 [] []

theorem tokens_word_word (hname : IsWord name) (harg : IsWord arg) : tokens (name ++ ' ' :: arg) [] = [name, arg] := by
  rw [tokens_append hname.2]
  simp [tokens, hname.1, tokens_word harg]

/-- A line of one word is a command alone. -/
theorem parseChars_word (hname : IsWord name) : parseChars name = (parseCommand name []).map some := by
  rw [parseChars, stripComment_eq_self hname.semicolon_notMem, tokens_word hname]

/-- A line of two words is a command and its operand. -/
theorem parseChars_word_word (hname : IsWord name) (harg : IsWord arg) :
    parseChars (name ++ ' ' :: arg) = (parseCommand name [arg]).map some := by
  have hline : ';' ∉ name ++ ' ' :: arg := by simp [hname.semicolon_notMem, harg.semicolon_notMem]
  rw [parseChars, stripComment_eq_self hline, tokens_word_word hname harg]

theorem mnemonic_isWord (i : Instr) : IsWord i.mnemonic.toList := by
  cases i <;> simp [Instr.mnemonic, IsWord, isWordChar]

/-- The assembler finds a command by its mnemonic, and knows whether it takes an operand. -/
theorem find?_mnemonic (i : Instr) :
    ∃ form, asmTable.find? (fun row => row.1.toList = i.mnemonic.toList) = some (i.mnemonic, form) ∧
      ((i.operand = none ∧ form = .alone i) ∨ ∃ build b, form = .operand build ∧ i.operand = some b ∧ build b = i) := by
  cases i
  case nop | clr | gflog | gfexp | shl | macg | step | enc =>
    exact ⟨_, by simp [asmTable, Instr.mnemonic], .inl ⟨rfl, rfl⟩⟩
  all_goals exact ⟨_, by simp [asmTable, Instr.mnemonic], .inr ⟨_, _, rfl, rfl, rfl⟩⟩

/-- A spelling of the operands: each byte a word that has its value. -/
abbrev IsSpelling (spell : Byte → List Char) : Prop := ∀ b, IsWord (spell b) ∧ operandValue (spell b) = some b

theorem isSpelling_decimalText : IsSpelling decimalText := by decide +kernel

theorem isSpelling_hexText : IsSpelling hexText := by decide +kernel

/-- A command is read back, whichever spelling its operand has. -/
theorem parseChars_asmText {spell : Byte → List Char} (hspell : IsSpelling spell) (i : Instr) :
    parseChars (asmText spell i) = some (some i) := by
  have hname := mnemonic_isWord i
  obtain ⟨form, hfind, ⟨hi, rfl⟩ | ⟨build, b, rfl, hi, hbuild⟩⟩ := find?_mnemonic i
  · simp only [asmText, hi, parseChars_word hname, parseCommand, hfind, Option.map_some]
  · obtain ⟨harg, hval⟩ := hspell b
    simp only [asmText, hi, parseChars_word_word hname harg, parseCommand, hfind, hval, Option.map_some, hbuild]

/-- Settles O6: both spellings of an operand have its value, and the pseudo-instructions are rows of the assembler's table. -/
theorem assemblerReadsEveryCommandBack : Obligations.AssemblerReadsEveryCommandBack := by
  unfold Obligations.AssemblerReadsEveryCommandBack
  exact ⟨fun i => ⟨parseChars_asmText isSpelling_decimalText i, parseChars_asmText isSpelling_hexText i⟩,
    by decide +kernel⟩

/-! ## The response word (R57, R58) -/

/-- Bit 15 of a response word is `FAULT` (30_encoding.md R57). -/
theorem getLsbD_status_append (t : State) (data : Byte) : (t.status ++ data).getLsbD 15 = decide (t.err ≠ 0) := by
  obtain ⟨h7, -⟩ := t.status_getLsbD
  exact (BitVec.getLsbD_append ..).trans h7

/-- A command answers its own data byte where it completes, and 0 where it faults or is rejected (30_encoding.md R58). -/
theorem exec_rsp (h : exec i s = .next t) : t.rsp = some (t.status ++
    if (s.err = 0 ∧ failingCode i s = none) ∨ (s.err ≠ 0 ∧ runsWhenFaulted i = true) then completedData i s t else 0) := by
  rcases exec_next h with ⟨he, hrun, rfl⟩ | ⟨c, he, hc, rfl⟩ | ⟨hok, ht⟩
  · rw [if_neg (fun hok => hok.elim (fun h => he h.1) fun h => by simp [hrun] at h)]; rfl
  · rw [if_neg (fun hok => hok.elim (fun h => by simp [hc] at h) fun h => h.1 he)]; rfl
  · obtain ⟨-, -, -, -, -, -, -, -, hrsp⟩ := effect_frame ht
    rw [if_pos hok.symm, hrsp]

theorem illegal_rsp (h : s.illegal = .next t) : t.rsp = some (t.status ++ (0 : Byte)) := by
  rcases illegal_next h with ⟨-, rfl⟩ | ⟨-, rfl⟩ <;> rfl

/-- Settles O15: the response of a command, and of an illegal word, is its own lemma above; `LDW` answers the `ACC` it writes. -/
theorem dataByteOfEveryCommand : Obligations.DataByteOfEveryCommand := by
  unfold Obligations.DataByteOfEveryCommand
  refine ⟨fun i s t _ h => ⟨exec_rsp h, ?_⟩, fun s t cmd rest hp hill h => illegal_rsp (step_of_illegalWord hp hill ▸ h)⟩
  rintro j rfl he hc
  rw [exec_eq, if_neg (not_not.2 he), hc] at h
  obtain rfl := Option.some.inj (ofEffect_next h)
  rfl

/-- Every command word gets a response, and no other entry is taken. -/
theorem step_command_rsp (hp : s.pending = .command cmd :: rest) (h : step s = .next t) :
    t.pending = rest ∧ ∃ data : Byte, t.rsp = some (t.status ++ data) := by
  rw [step_command hp, runWord] at h
  split at h
  · exact ⟨exec_keeps_pending h, _, exec_rsp h⟩
  · refine ⟨?_, _, illegal_rsp h⟩
    rcases illegal_next h with ⟨-, rfl⟩ | ⟨-, rfl⟩ <;> rfl

/-- A command given to the running block leaves `ERR` 0 exactly when its checks pass. -/
theorem exec_err_eq_zero_of_running (h : exec i s = .next t) (he : s.err = 0) : t.err = 0 ↔ failingCode i s = none := by
  rcases hc : failingCode i s with _ | c
  · refine iff_of_true ?_ rfl
    rcases exec_err h with heq | ⟨-, h0⟩ | ⟨-, hcode⟩
    exacts [heq.trans he, h0, absurd (hc.symm.trans hcode) nofun]
  · rw [exec_eq_execWith, execWith_faults he hc] at h
    obtain rfl := Host.Outcome.next.inj h
    exact iff_of_false (failingCode_bounds hc).1 nofun

/-- A command given in the faulted state leaves `ERR` 0 exactly when it is `CLR` (60_exceptions.md R127). -/
theorem exec_err_eq_zero_of_faulted (h : exec i s = .next t) (he : s.err ≠ 0) : t.err = 0 ↔ i = .clr := by
  constructor
  · intro h0
    rcases exec_err h with heq | ⟨hclr, -⟩ | ⟨hrun, -⟩
    exacts [absurd (heq.symm.trans h0) he, hclr, absurd hrun he]
  · rintro rfl
    exact exec_clr_next h ▸ rfl

theorem illegal_err_ne_zero (h : s.illegal = .next t) : t.err ≠ 0 := by
  rcases illegal_next h with ⟨he, rfl⟩ | ⟨-, rfl⟩
  · exact he
  · exact nofun

/-- Which command words leave `ERR` 0: an illegal one never does (30_encoding.md R57). -/
theorem step_command_err_eq_zero (hp : s.pending = .command cmd :: rest) (h : step s = .next t) :
    (s.err = 0 → (t.err = 0 ↔ ∃ i, decode cmd = .ok i ∧ failingCode i (s.taken rest) = none)) ∧
    (s.err ≠ 0 → (t.err = 0 ↔ decode cmd = .ok .clr)) := by
  rw [step_command hp, runWord] at h
  rcases hd : decode cmd with e | i <;> rw [hd] at h
  · have ht : t.err ≠ 0 := illegal_err_ne_zero h
    exact ⟨fun _ => iff_of_false ht (by simp), fun _ => iff_of_false ht nofun⟩
  · refine ⟨fun he => ?_, fun he => ?_⟩
    · rw [exec_err_eq_zero_of_running h he]; simp
    · rw [exec_err_eq_zero_of_faulted h he, Except.ok.injEq]

/-- Settles O14, from the response and from what a word does to `ERR`. -/
theorem everyCommandWordGetsOneResponse : Obligations.EveryCommandWordGetsOneResponse := by
  unfold Obligations.EveryCommandWordGetsOneResponse
  intro s t cmd rest hp h
  obtain ⟨hpend, data, hrsp⟩ := step_command_rsp hp h
  have hbit : (t.status ++ data).getLsbD 15 = false ↔ t.err = 0 := by rw [getLsbD_status_append]; simp
  obtain ⟨hrun, hfault⟩ := step_command_err_eq_zero hp h
  exact ⟨hpend, data, hrsp, getLsbD_status_append t data, fun he => hbit.trans (hrun he),
    fun he => hbit.trans (hfault he)⟩

end Sys2Proof.Machine
end

section
/-! # Proofs about the system: the step of one command word, and NOP, CLR, RDREG, SETR (40_system.md R65 to R69) -/

namespace Sys2Proof.Machine

variable {cmd : Word16} {i : Instr} {s t : State} {rest : List HostInput} {n r : Byte}

/-! ## The word of a command as a sum -/

/-- The word of a command is its opcode's word plus its low byte (30_encoding.md R50): no bit is in both. -/
theorem encode_eq_add {w : Word16} {op b : Byte} (hop : i.opcode = op) (hb : i.lowByte = b) (hw : op ++ (0 : Byte) = w) :
    encode i = w + b.setWidth 16 := by
  rw [encode, hop, hb, ← hw, BitVec.setWidth_eq_append (by decide : 8 ≤ 16)]
  exact BitVec.append_zero_add_zero_append.symm

/-! ## The six steps (R65) -/

theorem step_of_decode_ok (hp : s.pending = .command cmd :: rest) (hd : decode cmd = .ok i) :
    step s = exec i (s.taken rest) := by
  rw [step_command hp, runWord, hd]

theorem step_of_decode_error {e : DecodeReject} (hp : s.pending = .command cmd :: rest) (hd : decode cmd = .error e) :
    step s = (s.taken rest).illegal := by
  rw [step_command hp, runWord, hd]

theorem runWord_of_illegalWord (hill : illegalWord cmd) (s : State) : runWord cmd s = s.illegal := by
  obtain ⟨e, he⟩ := (exists_decode_error_iff cmd).2 hill
  rw [runWord, he]

theorem illegal_of_running (he : s.err = 0) : s.illegal = .next (s.afterFault 1) := by
  rw [State.illegal_eq, if_neg (not_not.2 he)]

theorem illegal_of_faulted (he : s.err ≠ 0) : s.illegal = .next s.afterReject := by
  rw [State.illegal_eq, if_pos he]

theorem exec_faults {c : BitVec 3} (he : s.err = 0) (hc : failingCode i s = some c) : exec i s = .next (s.afterFault c) :=
  (exec_eq_execWith i s).trans (execWith_faults he hc)

/-- In the faulted state a word is rejected, illegal or not, unless it is one of those that still execute (R65, step 2). -/
theorem step_rejects (hp : s.pending = .command cmd :: rest) (he : s.err ≠ 0)
    (hrun : ∀ i, decode cmd = .ok i → runsWhenFaulted i = false) : step s = .next (s.taken rest).afterReject := by
  rcases hd : decode cmd with e | i
  · rw [step_of_decode_error hp hd]
    exact illegal_of_faulted he
  · rw [step_of_decode_ok hp hd]
    exact exec_rejects he (hrun i hd)

theorem exists_step_of_inv (h : s.Inv) : ∃ t, step s = .next t := by
  obtain ⟨t, ht, -⟩ := stepWith_keeps_inv Config.stated_admissible h
  exact ⟨t, (step_eq_stepWith s).trans ht⟩

theorem exists_exec_of_inv (h : s.Inv) (i : Instr) : ∃ t, exec i s = .next t := by
  obtain ⟨t, ht, -⟩ := execWith_keeps_inv Config.stated_admissible h i
  exact ⟨t, (exec_eq_execWith i s).trans ht⟩

/-- Settles O8: the faulted state, then the running one, then the response of each word and that there is one. -/
theorem stepFollowsTheSixStepsOfOneCommand : Obligations.StepFollowsTheSixStepsOfOneCommand := by
  unfold Obligations.StepFollowsTheSixStepsOfOneCommand
  intro s cmd rest hp
  refine ⟨fun he => ⟨fun i hd _ => step_of_decode_ok hp hd, step_rejects hp he⟩, fun he => ⟨fun e hd => ?_, fun i hd => ?_⟩,
    fun t h => (step_command_rsp hp h).2, exists_step_of_inv⟩
  · rw [step_of_decode_error hp hd]
    exact illegal_of_running he
  · have hstep := step_of_decode_ok hp hd
    exact ⟨hstep, fun c hc => hstep.trans (exec_faults he hc)⟩

/-- Settles O9: at the stated configuration, which is admissible, the step and every command go on. -/
theorem stepNeverStops : Obligations.StepNeverStops := by
  unfold Obligations.StepNeverStops
  exact fun s h => ⟨exists_step_of_inv h, exists_exec_of_inv h⟩

/-! ## NOP (R66) -/

/-- Settles O27: a nonzero low byte under the opcode of `NOP` is no command, and `NOP` answers the state it is given. -/
theorem nopChangesNothing : Obligations.NopChangesNothing := by
  unfold Obligations.NopChangesNothing
  have hdec : decode 0x0001 = .error .nonzeroLowByte := rfl
  exact ⟨rfl, (exists_decode_error_iff _).1 ⟨_, hdec⟩, hdec, fun s => rfl⟩

/-! ## CLR (R67) -/

theorem exec_clr (s : State) : exec .clr s = .next { State.reset with pending := s.pending, rsp := some 0x0000 } := by
  calc exec .clr s
      = .next { s.cleared with rsp := some (s.cleared.responseWord 0) } := rfl
    _ = .next { State.reset with pending := s.pending, rsp := some 0x0000 } := by rw [State.cleared_responseWord]; rfl

/-- Settles O28: what the other commands do to `ERR` in the faulted state and to a standing result leaves both. -/
theorem clrLeavesTheResetState : Obligations.ClrLeavesTheResetState := by
  unfold Obligations.ClrLeavesTheResetState
  refine ⟨rfl, exec_clr, Memory.read_nil, fun i s t h hclr => ⟨fun he => ?_, fun hd => ?_⟩⟩
  · exact mt (exec_err_eq_zero_of_faulted h he).1 hclr
  · exact (exec_keeps_result h hd hclr).1

/-! ## RDREG (R68) -/

theorem encode_rdreg (n : Byte) : encode (.rdreg n) = 0x0200#16 + n.setWidth 16 :=
  encode_eq_add (op := 0x02) rfl rfl (by decide)

/-- A register number that the block has is read in every state, faulted or not. -/
theorem exec_rdreg_of_readReg {v : Byte} (h : s.readReg n = some v) : exec (.rdreg n) s = .next (s.afterAnswer v) := by
  change execRdreg n s = _
  rw [execRdreg, h]
  rfl

/-- The words of the reserved register numbers are illegal (10_state.md R18; 30_encoding.md R55). -/
theorem illegalWord_encode_rdreg (hn : 4 ≤ n.toNat) : illegalWord (encode (.rdreg n)) := by
  refine .inr (.inr ⟨opField_encode _, ?_⟩)
  change 4 ≤ (immField (encode (.rdreg n))).toNat
  rwa [immField_encode]

/-- Settles O29: the four registers, then a reserved number as an illegal word. -/
theorem rdregReadsTheRegister : Obligations.RdregReadsTheRegister := by
  unfold Obligations.RdregReadsTheRegister
  intro n s
  rw [← encode_rdreg n]
  refine ⟨rfl, ?acc, ?rlen, ?dlen, ?status, fun hn => ?reserved⟩
  case acc | rlen | dlen | status =>
    rintro rfl
    exact exec_rdreg_of_readReg rfl
  case reserved =>
    have hill := illegalWord_encode_rdreg hn
    rw [runWord_of_illegalWord hill]
    exact ⟨hill, illegal_of_running, illegal_of_faulted⟩

/-! ## SETR (R69) -/

theorem encode_setr (r : Byte) : encode (.setr r) = 0x0300#16 + r.setWidth 16 :=
  encode_eq_add (op := 0x03) rfl rfl (by decide)

/-- Where no result stands, the range is the one check that is left. -/
theorem failingCode_setr_of_open (hd : s.done = false) (r : Byte) :
    failingCode (.setr r) s = if r.toNat < 7 ∨ 68 < r.toNat then some 2 else none := by
  rw [failingCode, hd]
  rfl

/-- `STATUS` of a running block that holds a degree and no result is `RSET` alone (10_state.md R17). -/
theorem State.responseWord_ready (he : s.err = 0) (hd : s.done = false) (hr : s.rlen ≠ 0) (data : Byte) :
    s.responseWord data = 0b00100000#8 ++ data := by
  rw [State.responseWord, State.status, State.faultFlag, State.rsetFlag, he, hd, decide_eq_true hr]
  rfl

theorem exec_setr_completes (he : s.err = 0) (hd : s.done = false) (hr : degreeHeld r.toNat) :
    exec (.setr r) s = .next { s with rlen := r.setWidth 7, rsp := some (0b00100000#8 ++ (0x00 : Byte)) } := by
  have hcode : failingCode (.setr r) s = none := by
    obtain ⟨h7, h68⟩ := degreeHeld_bounds hr
    rw [failingCode_setr_of_open hd, if_neg (by omega)]
  have hheld : degreeHeld (r.setWidth 7).toNat := setWidth_toNat_of_degreeHeld hr ▸ hr
  have hrsp : State.responseWord { s with rlen := r.setWidth 7 } 0 = 0b00100000#8 ++ (0x00 : Byte) :=
    State.responseWord_ready (s := { s with rlen := r.setWidth 7 }) he hd (State.rlen_ne_zero hheld) 0
  rw [exec_completes (.inl he) hcode rfl, State.afterAnswer, hrsp]

/-- Settles O30: the two checks in order, then the write. -/
theorem setrSetsRlen : Obligations.SetrSetsRlen := by
  unfold Obligations.SetrSetsRlen
  refine fun r s => ⟨encode_setr r, fun he => ⟨fun hd => exec_frozen he hd rfl, fun hd hr => ?_, fun hd h7 h68 => ?_⟩⟩
  · exact exec_faults he ((failingCode_setr_of_open hd r).trans (if_pos hr))
  · have hheld : degreeHeld r.toNat := ⟨h7, h68⟩
    exact ⟨r.setWidth 7, setWidth_toNat_of_degreeHeld hheld, exec_setr_completes he hd hheld⟩

end Sys2Proof.Machine
end

section
/-! # Proofs about the work-buffer commands PUSH, LDW, STW, RDRS (41_buffer.md R76 to R79) -/

namespace Sys2Proof.Machine

variable {s : State} {i : Instr} {b j : Byte}

/-! ## PUSH (R76) -/

theorem encode_push (b : Byte) : encode (.push b) = 0x1000#16 + b.setWidth 16 :=
  encode_eq_add (op := 0x10) rfl rfl (by decide)

/-- Where no result stands, the full buffer is the one check that is left. -/
theorem failingCode_push_of_open (hd : s.done = false) (b : Byte) :
    failingCode (.push b) s = if s.dlen.toNat = 255 then some 4 else none := by
  rw [failingCode, hd]
  rfl

/-- `DLEN` does not wrap below the full buffer (10_state.md R14). -/
theorem toNat_add_one_of_lt_full (hl : b.toNat < 255) : (b + 1).toNat = b.toNat + 1 :=
  BitVec.toNat_add_of_lt (y := 1#8) (Nat.succ_lt_succ hl)

/-- Settles O31: the two checks in order, then the write at index `DLEN`. -/
theorem pushAppendsAtDlen : Obligations.PushAppendsAtDlen := by
  unfold Obligations.PushAppendsAtDlen
  refine fun b s => ⟨encode_push b, fun he => ⟨fun hd => exec_frozen he hd rfl, fun hd hl => ?full, fun hd hl hw => ?room⟩⟩
  case full => exact exec_faults he ((failingCode_push_of_open hd b).trans (if_pos hl))
  case room =>
    obtain ⟨-, hroom⟩ := execWith_push_bounds (cfg := Config.stated) he hw hd b
    obtain ⟨w, hwf, hread, hexec⟩ := hroom hl
    exact ⟨w, hwf, hread, toNat_add_one_of_lt_full hl, (exec_eq_execWith _ s).trans hexec⟩

/-! ## LDW (R77) -/

theorem encode_ldw (j : Byte) : encode (.ldw j) = 0x1100#16 + j.setWidth 16 :=
  encode_eq_add (op := 0x11) rfl rfl (by decide)

/-- Settles O32: the one check, the load, and the rejection in the faulted state. -/
theorem ldwLoadsAcc : Obligations.LdwLoadsAcc := by
  unfold Obligations.LdwLoadsAcc
  refine fun j s => ⟨encode_ldw j, fun he => ⟨fun hj => ?outside, fun hj => ?inside⟩, fun he => exec_rejects he rfl⟩
  case outside => exact exec_faults he ((failingCode_ldw j s).trans (if_pos hj))
  case inside => exact exec_completes (.inl he) ((failingCode_ldw j s).trans (if_neg hj)) rfl

/-! ## STW (R78) -/

theorem encode_stw (j : Byte) : encode (.stw j) = 0x1200#16 + j.setWidth 16 :=
  encode_eq_add (op := 0x12) rfl rfl (by decide)

/-- Where no result stands, the index is the one check that is left. -/
theorem failingCode_stw_of_open (hd : s.done = false) (j : Byte) :
    failingCode (.stw j) s = if j = 255 then some 2 else none := by
  rw [failingCode_stw, hd]
  rfl

/-- Every index but 255 is in the buffer (20_memory.md R33). -/
theorem index_lt_of_ne (hj : j ≠ 255) : j.toNat < 255 :=
  Nat.lt_succ_of_le (not_lt.1 (mt (index_above_iff j).1 hj))

/-- Settles O33: the two checks in order, then the write of `ACC` at index `j`. -/
theorem stwStoresAcc : Obligations.StwStoresAcc := by
  unfold Obligations.StwStoresAcc
  refine fun j s => ⟨encode_stw j, fun he => ⟨fun hd => exec_frozen he hd rfl, fun hd hj => ?outside,
    fun hd hj hw => ?inside⟩⟩
  case outside => exact exec_faults he ((failingCode_stw_of_open hd j).trans (if_pos hj))
  case inside =>
    obtain ⟨-, hstore⟩ := execWith_stw_bounds Config.stated_admissible he hw hd j
    obtain ⟨w, hwf, hread, hexec⟩ := hstore (index_lt_of_ne hj)
    exact ⟨w, hwf, hread, (exec_eq_execWith _ s).trans hexec⟩

/-! ## RDRS (R79) -/

theorem encode_rdrs (j : Byte) : encode (.rdrs j) = 0x1300#16 + j.setWidth 16 :=
  encode_eq_add (op := 0x13) rfl rfl (by decide)

/-- Before `ENC` there is no result to read. -/
theorem failingCode_rdrs_of_open (hd : s.done = false) (j : Byte) : failingCode (.rdrs j) s = some 5 := by
  rw [failingCode, hd]
  rfl

/-- Where a result stands, the index is the one check that is left. -/
theorem failingCode_rdrs_of_done (hd : s.done = true) (j : Byte) :
    failingCode (.rdrs j) s = if s.rlen.toNat ≤ j.toNat then some 2 else none := by
  rw [failingCode, hd]
  rfl

/-- A rejection after a fault answers with the response of that fault (60_exceptions.md R123, R124). -/
theorem exec_rejects_afterFault {c : BitVec 3} (hc : c ≠ 0) (hrun : runsWhenFaulted i = false) :
    exec i (s.afterFault c) = .next (s.afterFault c) :=
  exec_rejects (s := s.afterFault c) hc hrun

/-- Settles O34: the two checks in order, the rejections that follow the second, then the read. -/
theorem rdrsReadsTheResult : Obligations.RdrsReadsTheResult := by
  unfold Obligations.RdrsReadsTheResult
  refine fun j s => ⟨encode_rdrs j, fun he => ⟨fun hd => exec_faults he (failingCode_rdrs_of_open hd j),
    fun hd hj => ⟨?fault, fun k => ⟨?rdrs, ?ldw⟩⟩, fun hd hj => ?read⟩⟩
  case fault => exact exec_faults he ((failingCode_rdrs_of_done hd j).trans (if_pos hj))
  case rdrs | ldw => exact exec_rejects_afterFault (by decide) rfl
  case read => exact exec_completes (.inl he) ((failingCode_rdrs_of_done hd j).trans (if_neg (not_le.2 hj))) rfl

end Sys2Proof.Machine
end

section
/-! # Proofs about the field: the laws of its product, the carry-less product, and GFLDI, GFADDI, GFMULI, GFLOG, GFEXP
(42_gf.md R85 to R93) -/

namespace Sys2Proof.Machine

variable {s : State} {a b : Byte}

/-! ## The product (R86, R87) -/

theorem gfmul_of_zero (h : a = 0 ∨ b = 0) : gfmul a b = 0 := if_pos h

theorem gfmul_of_ne_zero (ha : a ≠ 0) (hb : b ≠ 0) : gfmul a b = antilog ((log a).toNat + (log b).toNat) :=
  if_neg (not_or.2 ⟨ha, hb⟩)

theorem gfmul_zero (a : Byte) : gfmul a 0 = 0 := gfmul_of_zero (.inr rfl)

theorem zero_gfmul (b : Byte) : gfmul 0 b = 0 := gfmul_of_zero (.inl rfl)

/-- A byte is zero or a power of `ALPHA`: the case split of every law below. -/
theorem eq_zero_or_antilog (a : Byte) : a = 0 ∨ ∃ e, antilog e = a := by
  by_cases ha : a = 0
  · exact .inl ha
  · obtain ⟨e, -, rfl⟩ := exists_antilog_eq ha
    exact .inr ⟨e, rfl⟩

theorem gfmul_comm (a b : Byte) : gfmul a b = gfmul b a := by
  simp only [gfmul, or_comm, Nat.add_comm]

theorem gfmul_assoc (a b c : Byte) : gfmul a (gfmul b c) = gfmul (gfmul a b) c := by
  rcases eq_zero_or_antilog a with rfl | ⟨m, rfl⟩
  · simp only [zero_gfmul]
  rcases eq_zero_or_antilog b with rfl | ⟨n, rfl⟩
  · simp only [zero_gfmul, gfmul_zero]
  rcases eq_zero_or_antilog c with rfl | ⟨k, rfl⟩
  · simp only [gfmul_zero]
  · simp only [gfmul_antilog, Nat.add_assoc]

theorem eq_zero_of_gfmul_eq_zero (h : gfmul a b = 0) : a = 0 ∨ b = 0 := by
  by_contra hne
  obtain ⟨ha, hb⟩ := not_or.1 hne
  rw [gfmul_of_ne_zero ha hb] at h
  exact antilog_ne_zero _ h

/-- The exponents of a nonzero `a` and of its inverse add up to 0 or to 255, which `EXP` takes for 0. -/
theorem gfmul_inverse (ha : a ≠ 0) : gfmul a (antilog ((255 - (log a).toNat) % 255)) = 1 := by
  obtain ⟨e, he, rfl⟩ := exists_antilog_eq ha
  have hsum : e + (255 - e) = 255 := by omega
  rw [log_antilog he, antilog_mod, gfmul_antilog, hsum]
  exact antilog_mod 255

theorem gfmul_eq_one_iff (ha : a ≠ 0) (b : Byte) : gfmul a b = 1 ↔ b = antilog ((255 - (log a).toNat) % 255) := by
  constructor
  · intro h
    have hinv := gfmul_inverse ha
    generalize antilog ((255 - (log a).toNat) % 255) = c at hinv ⊢
    calc b = gfmul b (gfmul a c) := by rw [hinv, gfmul_one]
      _ = gfmul (gfmul a b) c := by rw [gfmul_assoc, gfmul_comm b a]
      _ = c := by rw [h, gfmul_comm, gfmul_one]
  · rintro rfl
    exact gfmul_inverse ha

/-! ## Multiplication by x, and the product over sums (R87; 20_memory.md R44)

A power of `ALPHA` multiplies by iterating `xtime`, which is linear over `xor`; so a product is linear in each factor. -/

/-- `f` takes sums in the field to sums. -/
abbrev XorLinear {m n : Nat} (f : BitVec m → BitVec n) : Prop := Function.Semiconj₂ f (· ^^^ ·) (· ^^^ ·)

/-- Adding `c` where a bit is set is linear in the bit and the word together. -/
theorem ite_xor_linear {n : Nat} (x y : Bool) (c p q : BitVec n) :
    (if (x ^^ y) then (p ^^^ q) ^^^ c else p ^^^ q) = (if x then p ^^^ c else p) ^^^ (if y then q ^^^ c else q) := by
  cases x <;> cases y
  · rfl
  · exact BitVec.xor_assoc p q c
  · simp [BitVec.xor_assoc, BitVec.xor_comm c]
  · have hcancel : (p ^^^ c) ^^^ (q ^^^ c) = p ^^^ q := by
      rw [BitVec.xor_comm q c, BitVec.xor_assoc, ← BitVec.xor_assoc c c q, BitVec.xor_self, BitVec.zero_xor]
    exact hcancel.symm

theorem xtime_linear : XorLinear xtime := by
  intro p q
  simp only [xtime, BitVec.getLsbD_xor, BitVec.shiftLeft_xor_distrib, ite_xor_linear]

/-- `EXP` goes round: each entry is the `xtime` of the one before it, the first that of the last (20_memory.md R44). -/
theorem antilog_succ_eq_xtime (n : Nat) : antilog (n + 1) = xtime (antilog n) := by
  rw [← antilog_mod (n + 1), ← antilog_mod n, Nat.add_mod]
  have hlt : n % 255 < 255 := Nat.mod_lt n (by decide)
  rcases Nat.lt_succ_iff_lt_or_eq.1 hlt with hlt | heq
  · rw [← antilog_succ hlt, Nat.mod_eq_of_lt (b := 255) (by omega)]
  · rw [heq]; decide +kernel

theorem xtime_gfmul (a b : Byte) : xtime (gfmul a b) = gfmul (xtime a) b := by
  rcases eq_zero_or_antilog a with rfl | ⟨m, rfl⟩
  · rw [zero_gfmul]; exact (zero_gfmul b).symm
  rcases eq_zero_or_antilog b with rfl | ⟨n, rfl⟩
  · rw [gfmul_zero, gfmul_zero]; rfl
  · rw [← antilog_succ_eq_xtime, gfmul_antilog, gfmul_antilog, ← antilog_succ_eq_xtime, Nat.add_right_comm]

/-- A power of `ALPHA` multiplies by as many steps of `xtime`. -/
theorem gfmul_antilog_eq_iterate (n : Nat) (b : Byte) : gfmul (antilog n) b = xtime^[n] b := by
  induction n with
  | zero => exact (gfmul_comm 1 b).trans (gfmul_one b)
  | succ n ih => rw [antilog_succ_eq_xtime, ← xtime_gfmul, ih, Function.iterate_succ_apply']

theorem gfmul_two (a : Byte) : gfmul a 2 = xtime a :=
  (gfmul_comm a 2).trans (gfmul_antilog_eq_iterate 1 a)

theorem gfmul_linear (a : Byte) : XorLinear (gfmul a) := by
  rcases eq_zero_or_antilog a with rfl | ⟨n, rfl⟩
  · intro b c
    simp only [zero_gfmul]
    rfl
  · rw [funext (gfmul_antilog_eq_iterate n)]
    exact xtime_linear.iterate n

/-- Settles O46: by cases on zero and powers of `ALPHA`; the sum by the linearity of `xtime`. -/
theorem fieldProductLaws : Obligations.FieldProductLaws := by
  unfold Obligations.FieldProductLaws
  exact ⟨gfmul_comm, gfmul_assoc, fun a => ⟨gfmul_one a, gfmul_zero a⟩, gfmul_linear, fun _ _ => eq_zero_of_gfmul_eq_zero,
    fun _ => gfmul_eq_one_iff⟩

/-! ## The product without tables (R88)

Both products are sums over the bits of the second factor of one term a bit, and reduction is linear; so it is enough that
they agree on the term of each bit. -/

/-- The term `f i` added where the bit `i` of `b` is set. -/
def bitStep {n : Nat} (f : Nat → BitVec n) (b : Byte) (p : BitVec n) (i : Nat) : BitVec n :=
  if b.getLsbD i then p ^^^ f i else p

/-- The sum of the terms `f i` over the bits `i` set in `b`. -/
def bitSum {n : Nat} (f : Nat → BitVec n) (b : Byte) : BitVec n := (List.range 8).foldl (bitStep f b) 0

theorem bitSum_congr {n : Nat} {f g : Nat → BitVec n} (h : ∀ i < 8, f i = g i) (b : Byte) : bitSum f b = bitSum g b :=
  List.foldl_ext _ _ _ fun _ i hi => by rw [bitStep, bitStep, h i (List.mem_range.1 hi)]

theorem XorLinear.map_zero {m n : Nat} {F : BitVec m → BitVec n} (hF : XorLinear F) : F 0 = 0 := by
  calc F 0
      = F (0 ^^^ 0) := by rw [BitVec.xor_self]; rfl
    _ = F 0 ^^^ F 0 := hF 0 0
    _ = 0 := BitVec.xor_self

theorem XorLinear.map_bitStep {m n : Nat} {F : BitVec m → BitVec n} (hF : XorLinear F) (f : Nat → BitVec m) (b : Byte)
    (p : BitVec m) (i : Nat) : bitStep (fun i => F (f i)) b (F p) i = F (bitStep f b p i) := by
  rw [bitStep, bitStep, apply_ite F, hF.eq]

theorem XorLinear.map_bitSum {m n : Nat} {F : BitVec m → BitVec n} (hF : XorLinear F) (f : Nat → BitVec m) (b : Byte) :
    F (bitSum f b) = bitSum (fun i => F (f i)) b := by
  have h := List.foldl_hom F (l := List.range 8) (init := 0) (hF.map_bitStep f b)
  rw [hF.map_zero] at h
  exact h.symm

/-- The first eight powers of `ALPHA` are the bits of a byte. -/
theorem bitSum_antilog (b : Byte) : bitSum antilog b = b := by revert b; decide +kernel

/-- Linear functions of a byte that agree on each bit agree. -/
theorem XorLinear.eq_of_bits {n : Nat} {F G : Byte → BitVec n} (hF : XorLinear F) (hG : XorLinear G)
    (h : ∀ j < 8, F (antilog j) = G (antilog j)) (a : Byte) : F a = G a := by
  rw [← bitSum_antilog a, hF.map_bitSum, hG.map_bitSum, bitSum_congr h]

theorem clProduct_eq_bitSum (a b : Byte) : clProduct a b = bitSum (fun i => a.setWidth 15 <<< i) b := rfl

theorem foldl_linear {n : Nat} {ι : Type} {step : BitVec n → ι → BitVec n} (h : ∀ i, XorLinear fun p => step p i)
    (l : List ι) : XorLinear fun p => l.foldl step p := by
  induction l with
  | nil => exact fun _ _ => rfl
  | cons i l ih => exact ih.comp (h i)

theorem clReduce_linear : XorLinear clReduce :=
  foldl_linear (fun i p q => by simp only [BitVec.getLsbD_xor, ite_xor_linear]) _

/-- The residue of a product as a byte. -/
def residue (p : BitVec 15) : Byte := (clReduce p).setWidth 8

theorem residue_linear : XorLinear residue := by
  intro p q
  rw [residue, clReduce_linear.eq, BitVec.setWidth_xor]
  rfl

theorem residue_shiftLeft_linear (i : Nat) : XorLinear fun a : Byte => residue (a.setWidth 15 <<< i) := by
  intro p q
  simp only [BitVec.setWidth_xor, BitVec.shiftLeft_xor_distrib, residue_linear.eq]

theorem residue_shiftLeft_antilog :
    ∀ i < 8, ∀ j < 8, residue ((antilog j).setWidth 15 <<< i) = xtime^[i] (antilog j) := by decide +kernel

/-- Shifting by a bit number and reducing is that many steps of `xtime`. -/
theorem residue_shiftLeft {i : Nat} (hi : i < 8) (a : Byte) : residue (a.setWidth 15 <<< i) = xtime^[i] a :=
  (residue_shiftLeft_linear i).eq_of_bits (xtime_linear.iterate i) (residue_shiftLeft_antilog i hi) a

/-- Settles O47: bit by bit, as both products are linear in the second factor. -/
theorem tableProductIsCarrylessProduct : Obligations.TableProductIsCarrylessProduct := by
  unfold Obligations.TableProductIsCarrylessProduct
  intro a b
  have hterm : ∀ i < 8, gfmul a (antilog i) = residue (a.setWidth 15 <<< i) := fun i hi => by
    rw [gfmul_comm, gfmul_antilog_eq_iterate, residue_shiftLeft hi]
  calc gfmul a b
      = gfmul a (bitSum antilog b) := by rw [bitSum_antilog]
    _ = bitSum (fun i => gfmul a (antilog i)) b := (gfmul_linear a).map_bitSum antilog b
    _ = bitSum (fun i => residue (a.setWidth 15 <<< i)) b := bitSum_congr hterm b
    _ = residue (clProduct a b) := by rw [clProduct_eq_bitSum, residue_linear.map_bitSum]
    _ = carrylessMul a b := rfl

/-! ## GFLDI (R89) -/

theorem encode_gfldi (b : Byte) : encode (.gfldi b) = 0x2000#16 + b.setWidth 16 :=
  encode_eq_add (op := 0x20) rfl rfl (by decide)

/-- Settles O35: the command has no check. -/
theorem gfldiLoadsTheByte : Obligations.GfldiLoadsTheByte := by
  unfold Obligations.GfldiLoadsTheByte
  exact fun b s => ⟨encode_gfldi b, fun he => exec_completes (.inl he) rfl rfl⟩

/-! ## GFADDI (R90) -/

theorem encode_gfaddi (b : Byte) : encode (.gfaddi b) = 0x2100#16 + b.setWidth 16 :=
  encode_eq_add (op := 0x21) rfl rfl (by decide)

theorem exec_gfaddi (he : s.err = 0) (b : Byte) : exec (.gfaddi b) s = .next (s.afterAcc (s.acc ^^^ b)) :=
  exec_completes (.inl he) rfl rfl

/-- Settles O36: the second sum takes the operand out again. -/
theorem gfaddiAddsInTheField : Obligations.GfaddiAddsInTheField := by
  unfold Obligations.GfaddiAddsInTheField
  refine fun b s => ⟨encode_gfaddi b, fun he => ⟨exec_gfaddi he b, _, _, exec_gfaddi he b,
    exec_gfaddi (s := s.afterAcc _) he b, ?_⟩⟩
  calc (s.acc ^^^ b) ^^^ b
      = s.acc ^^^ (b ^^^ b) := BitVec.xor_assoc ..
    _ = s.acc := by rw [BitVec.xor_self, BitVec.xor_zero]

/-! ## GFMULI (R91) -/

theorem encode_gfmuli (b : Byte) : encode (.gfmuli b) = 0x2200#16 + b.setWidth 16 :=
  encode_eq_add (op := 0x22) rfl rfl (by decide)

theorem exec_gfmuli (he : s.err = 0) (b : Byte) : exec (.gfmuli b) s = .next (s.afterAcc (gfmul s.acc b)) :=
  exec_completes (.inl he) rfl rfl

/-- Settles O37: the command leaves the field product, whose value the laws above give in each case. -/
theorem gfmuliMultipliesInTheField : Obligations.GfmuliMultipliesInTheField := by
  unfold Obligations.GfmuliMultipliesInTheField
  refine fun b s => ⟨encode_gfmuli b, fun he => ?_⟩
  rw [exec_gfmuli he]
  refine ⟨fun hzero => ?_, fun ha hb => ?_, ?_, ?_⟩
  · rw [gfmul_of_zero hzero]
  · rw [gfmul_of_ne_zero ha hb, antilog_mod]
  · rintro rfl
    rw [gfmul_one]
  · rintro rfl
    rw [gfmul_two]

/-! ## GFLOG (R92) -/

theorem exec_gflog (he : s.err = 0) (ha : s.acc ≠ 0) : exec .gflog s = .next (s.afterAcc (log s.acc)) :=
  exec_completes (.inl he) (if_neg ha) rfl

/-- An exponent 0..254 is the log of its antilog (20_memory.md R47 (b)). -/
theorem eq_log_of_antilog_eq {f : Byte} (hf : f.toNat ≤ 254) (h : antilog f.toNat = a) : f = log a :=
  BitVec.eq_of_toNat_eq (h ▸ (log_antilog hf).symm)

/-- Settles O38: the check for zero, then the log, unique because `LOG` and `EXP` are inverse. -/
theorem gflogTakesTheLog : Obligations.GflogTakesTheLog := by
  unfold Obligations.GflogTakesTheLog
  refine ⟨rfl, fun s he => ⟨fun ha => exec_faults he (if_pos ha), fun ha => ?_⟩⟩
  obtain ⟨hle, hantilog⟩ := antilog_log ha
  exact ⟨log s.acc, exec_gflog he ha, rfl, hle, hantilog, fun f => eq_log_of_antilog_eq⟩

/-! ## GFEXP (R93) -/

theorem exec_gfexp (he : s.err = 0) : exec .gfexp s = .next (s.afterAcc (antilog s.acc.toNat)) :=
  exec_completes (.inl he) rfl rfl

/-- The log of an antilog is the exponent reduced mod 255: of the bytes, 255 alone is changed. -/
theorem log_antilog_toNat (a : Byte) : log (antilog a.toNat) = if a = 255 then 0 else a := by
  apply BitVec.eq_of_toNat_eq
  rw [log_antilog_mod]
  split
  next h => subst h; rfl
  next h => exact Nat.mod_eq_of_lt (index_lt_of_ne h)

/-- Settles O39: the antilog, then the two orders of `GFLOG` and `GFEXP`. -/
theorem gfexpTakesTheAntilog : Obligations.GfexpTakesTheAntilog := by
  unfold Obligations.GfexpTakesTheAntilog
  refine ⟨rfl, fun s he => ⟨⟨_, exec_gfexp he, (antilog_mod _).symm, antilog_ne_zero _⟩, fun h255 => ?wrap,
    fun ha => ?logFirst, ?expFirst⟩⟩
  case wrap =>
    rw [exec_gfexp he, h255]
    rfl
  case logFirst =>
    obtain ⟨-, hantilog⟩ := antilog_log ha
    exact ⟨_, _, exec_gflog he ha, exec_gfexp he, hantilog⟩
  case expFirst => exact ⟨_, _, exec_gfexp he, exec_gflog he (antilog_ne_zero _), log_antilog_toNat s.acc⟩

end Sys2Proof.Machine
end

section
/-! # Proofs about the polynomial commands GENRD, SHL, MACG, STEP, ENC (43_poly.md R100 to R106, R110) -/

namespace Sys2Proof.Machine

variable {cfg : Config} {s : State} {i : Instr} {a : Byte} {r : Nat} {terms : List Byte} {m : Memory}

/-! ## The rows of GEN as coefficients (20_memory.md R45) -/

/-- Adding the same byte twice takes it out again (42_gf.md R85). -/
theorem xor_xor_cancel_right {n : Nat} (x y : BitVec n) : (x ^^^ y) ^^^ y = x := by
  rw [BitVec.xor_assoc, BitVec.xor_self, BitVec.xor_zero]

theorem genRow_of_degreeHeld (hr : degreeHeld r) : ∃ terms ∈ genTable, genRow r = some terms ∧ terms.length = r := by
  obtain ⟨n, hn, rfl⟩ := exists_row_of_degreeHeld hr
  exact ⟨_, List.getElem_mem hn, genRow_eq_getElem hn, genTable_row_length hn⟩

theorem genTerm_of_genRow (hrow : genRow r = some terms) {k : Nat} (hk : k < terms.length) : genTerm r k = some terms[k] := by
  rw [genTerm, hrow]
  exact List.getElem?_eq_getElem hk

/-- The last entry of each row is the log of the constant term, the sum of the logs of the roots (43_poly.md R102). -/
theorem genTable_constant_terms : ∀ row ∈ genTable,
    row.getLast?.map BitVec.toNat = some (row.length * (row.length - 1) / 2 % 255) := by decide +kernel

theorem constantTerm_toNat (hmem : terms ∈ genTable) {k : Nat} (hk : k < terms.length) (hlast : k + 1 = terms.length) :
    terms[k].toNat = terms.length * (terms.length - 1) / 2 % 255 := by
  have hget : terms.getLast? = some terms[k] := by
    rw [List.getLast?_eq_getElem?, show terms.length - 1 = k by omega, List.getElem?_eq_getElem hk]
  have hconst := genTable_constant_terms terms hmem
  rw [hget] at hconst
  exact Option.some.inj hconst

/-- What the update loop adds, at the entry of a term of the row (43_poly.md R101, R104). -/
theorem Memory.added_term (e : Byte) {k : Nat} (hk : k < terms.length) :
    Memory.added e 0 terms (k + 1) = antilog ((terms[k].toNat + e.toNat) % 255) := by
  simp [Memory.added, hk, scaledTerm, antilog_mod]

/-- What the update loop adds is the factor times the coefficient whose log the row holds. -/
theorem Memory.added_eq_gfmul (ha : a ≠ 0) (terms : List Byte) (k : Nat) :
    Memory.added (log a) 0 terms (k + 1) = gfmul a ((termCoefficients terms).getD k 0) := by
  by_cases hk : k < terms.length
  · obtain ⟨-, hlog⟩ := antilog_log ha
    have hcoeff : (termCoefficients terms).getD k 0 = antilog terms[k].toNat := by simp [termCoefficients, hk]
    rw [Memory.added_term _ hk, antilog_mod, hcoeff, ← gfmul_antilog, hlog, gfmul_comm]
  · have hcoeff : (termCoefficients terms).getD k 0 = 0 := List.getD_eq_default _ _ (by simpa [termCoefficients] using hk)
    rw [Memory.added_above _ (by omega), hcoeff, gfmul_zero]

/-- One division iteration takes the lead times the generator out and shifts, whether the lead is zero or not
(43_poly.md R101). -/
theorem Memory.read_divStep_eq_gfmul (hw : m.wf cfg = true) (hl : terms.length < cfg.nmax) (j : Nat) :
    (m.divStep terms).read j = m.read (j + 1) ^^^ gfmul (m.read 0) ((termCoefficients terms).getD j 0) := by
  rw [Memory.read_divStep hw hl]
  split
  next h => rw [h, zero_gfmul]
  next h => rw [Memory.added_eq_gfmul h]

/-- The scaled generator, its leading coefficient 1 included (43_poly.md R104). -/
theorem Memory.read_addScaled_eq_gfmul (hw : m.wf cfg = true) (hl : terms.length < cfg.nmax) (ha : a ≠ 0) (j : Nat) :
    (m.addScaled terms a).read j = m.read j ^^^ gfmul a ((1 :: termCoefficients terms).getD j 0) := by
  rw [Memory.read_addScaled hw hl]
  cases j with
  | zero => rw [if_pos rfl, List.getD_cons_zero, gfmul_one]
  | succ j => rw [if_neg j.succ_ne_zero, List.getD_cons_succ, Memory.added_eq_gfmul ha]

/-- An all-zero buffer stays all zero (43_poly.md R106). -/
theorem Memory.ZeroFrom.iterate_divStep (hw : m.wf cfg = true) (hl : terms.length < cfg.nmax) (h : m.ZeroFrom 0) (n : Nat) :
    Memory.ZeroFrom 0 ((Memory.divStep terms)^[n] m) := by
  induction n generalizing m with
  | zero => exact h
  | succ n ih =>
    refine ih (Memory.wf_divStep hw hl) fun j _ => ?_
    rw [Memory.read_divStep_eq_gfmul hw hl, h _ (Nat.zero_le _), h 0 (Nat.le_refl 0), zero_gfmul]
    rfl

/-! ## GENRD (R102) -/

theorem encode_genrd (k : Byte) : encode (.genrd k) = 0x3000#16 + k.setWidth 16 :=
  encode_eq_add (op := 0x30) rfl rfl (by decide)

/-- No index is below an `RLEN` that is not set, so the two checks are one. -/
theorem failingCode_genrd (k : Byte) (s : State) :
    failingCode (.genrd k) s = if s.rlen.toNat ≤ k.toNat then some 2 else none := by
  rw [failingCode]
  split
  next h => rw [if_pos (by simp [h])]
  next => rfl

/-- Settles O40: the checks, then the entry of the row that `RLEN` selects. -/
theorem genrdReadsTheGeneratorTerm : Obligations.GenrdReadsTheGeneratorTerm := by
  unfold Obligations.GenrdReadsTheGeneratorTerm
  refine fun k s => ⟨encode_genrd k, fun he => ⟨fun hr => ?unset, fun hk => ?above, fun hr hk => ?below⟩⟩
  case unset => exact exec_faults he (if_pos hr)
  case above => exact exec_faults he ((failingCode_genrd k s).trans (if_pos hk))
  case below =>
    obtain ⟨terms, hmem, hrow, hlen⟩ := genRow_of_degreeHeld hr
    have hk' : k.toNat < terms.length := hlen ▸ hk
    have hterm := genTerm_of_genRow hrow hk'
    refine ⟨terms[k.toNat], hterm, Config.stated_admissible.entries _ hmem _ (List.getElem_mem hk'),
      exec_completes (.inl he) ((failingCode_genrd k s).trans (if_neg (not_le.2 hk))) (by rw [effect, hterm]; rfl),
      fun hlast => ?_⟩
    rw [← hlen]
    exact constantTerm_toNat hmem hk' (hlast.trans hlen.symm)

/-! ## SHL (R103) -/

/-- A command that does `f` to the buffer and answers 0, given `n` times, does `f` that many times. -/
theorem execTimes_eq_iterate {f : Memory → Memory}
    (h : ∀ w rsp, exec i { s with w := w, rsp := rsp } = .next { s with w := f w, rsp := some (s.responseWord 0) })
    (n : Nat) : ∀ w rsp, ∃ rsp', execTimes i n { s with w := w, rsp := rsp } = .next { s with w := f^[n] w, rsp := rsp' } := by
  induction n with
  | zero => exact fun w rsp => ⟨rsp, rfl⟩
  | succ n ih =>
    intro w rsp
    rw [execTimes, h]
    exact ih (f w) _

theorem exec_shl (he : s.err = 0) (hd : s.done = false) :
    exec .shl s = .next { s with w := s.w.shift, rsp := some (s.responseWord 0) } :=
  exec_completes (.inl he) (if_neg (by simp [hd])) rfl

theorem Memory.read_iterate_shift (n : Nat) (m : Memory) (j : Nat) : (Memory.shift^[n] m).read j = m.read (j + n) := by
  induction n generalizing m with
  | zero => rfl
  | succ n ih => rw [Function.iterate_succ_apply, ih, Memory.read_shift, Nat.add_assoc]

/-- As many shifts as the buffer has entries clear it. -/
theorem execTimes_shl_clears (he : s.err = 0) (hd : s.done = false) (hw : s.w.wf = true) {n : Nat} (hn : 255 ≤ n) :
    ∃ t, execTimes .shl n s = .next t ∧ ∀ j, t.w.read j = 0 := by
  obtain ⟨rsp, ht⟩ := execTimes_eq_iterate (s := s) (fun w rsp => exec_shl he hd) n s.w s.rsp
  exact ⟨_, ht, fun j => (Memory.read_iterate_shift n s.w j).trans (Memory.read_outside hw (hn.trans (Nat.le_add_left n j)))⟩

/-- Settles O41: the shift, entry by entry, and 255 of them. -/
theorem shlShiftsTheBuffer : Obligations.ShlShiftsTheBuffer := by
  unfold Obligations.ShlShiftsTheBuffer
  refine ⟨rfl, fun s he => ⟨fun hd => exec_frozen he hd rfl, fun hd hw => ?shift, fun hd hw =>
    execTimes_shl_clears he hd hw (Nat.le_refl 255)⟩⟩
  case shift =>
    have htop : s.w.shift.read 254 = 0 := (Memory.read_shift s.w 254).trans (Memory.read_outside hw (Nat.le_refl 255))
    exact ⟨s.w.shift, Memory.wf_shift hw, fun j _ => Memory.read_shift s.w j, htop, exec_shl he hd⟩

/-! ## MACG (R104) -/

/-- Where no result stands, an unset `RLEN` is the one check that is left of `MACG` and `STEP`. -/
theorem failingCode_macg_of_open (hd : s.done = false) : failingCode .macg s = if s.rlen = 0 then some 2 else none := by
  rw [failingCode, hd]
  rfl

theorem failingCode_step_of_open (hd : s.done = false) : failingCode .step s = if s.rlen = 0 then some 2 else none :=
  failingCode_macg_of_open hd

/-- A zero factor adds nothing, and no row is read. -/
theorem exec_macg_of_acc_eq_zero (he : s.err = 0) (hd : s.done = false) (hr : s.rlen ≠ 0) (ha : s.acc = 0) :
    exec .macg s = .next (s.afterAnswer 0) :=
  exec_completes (.inl he) ((failingCode_macg_of_open hd).trans (if_neg hr)) (if_pos ha)

theorem exec_macg_of_acc_ne_zero (he : s.err = 0) (hd : s.done = false) (hr : s.rlen ≠ 0)
    (hrow : genRow s.rlen.toNat = some terms) (ha : s.acc ≠ 0) :
    exec .macg s = .next { s with w := s.w.addScaled terms s.acc, rsp := some (s.responseWord 0) } :=
  exec_completes (.inl he) ((failingCode_macg_of_open hd).trans (if_neg hr)) (by rw [effect, if_neg ha, hrow]; rfl)

/-- `MACG` adds `ACC` times the generator into the buffer, whether `ACC` is zero or not. -/
theorem exec_macg_adds_gfmul (he : s.err = 0) (hd : s.done = false) (hr : s.rlen ≠ 0) (hw : s.w.wf = true)
    (hrow : genRow s.rlen.toNat = some terms) :
    ∃ w : Memory, w.wf = true ∧ (∀ j, w.read j = s.w.read j ^^^ gfmul s.acc ((1 :: termCoefficients terms).getD j 0)) ∧
      exec .macg s = .next { s with w := w, rsp := some (s.responseWord 0) } := by
  have hl : terms.length < 255 := genRow_length_lt hrow
  by_cases ha : s.acc = 0
  · refine ⟨s.w, hw, fun j => ?_, exec_macg_of_acc_eq_zero he hd hr ha⟩
    rw [ha, zero_gfmul]
    exact BitVec.xor_zero.symm
  · exact ⟨_, Memory.wf_addScaled hw hl, Memory.read_addScaled_eq_gfmul hw hl ha, exec_macg_of_acc_ne_zero he hd hr hrow ha⟩

/-- `MACG` given twice takes out what it added. -/
theorem exec_macg_twice (he : s.err = 0) (hd : s.done = false) (hr : s.rlen ≠ 0) (hw : s.w.wf = true)
    (hrow : genRow s.rlen.toNat = some terms) : ∃ t u, exec .macg s = .next t ∧ exec .macg t = .next u ∧ u.w = s.w := by
  obtain ⟨w, hwf, hread, hexec⟩ := exec_macg_adds_gfmul he hd hr hw hrow
  obtain ⟨w', hwf', hread', hexec'⟩ :=
    exec_macg_adds_gfmul (s := { s with w := w, rsp := some (s.responseWord 0) }) he hd hr hwf hrow
  refine ⟨_, _, hexec, hexec', Memory.ext_of_read hwf' hw fun j => ?_⟩
  rw [hread', hread, xor_xor_cancel_right]

/-- Settles O42: the checks, the zero factor, the scaled generator entry by entry, and the sum taken out again. -/
theorem macgAddsTheScaledGenerator : Obligations.MacgAddsTheScaledGenerator := by
  unfold Obligations.MacgAddsTheScaledGenerator
  refine ⟨rfl, fun s he => ⟨fun hd => exec_frozen he hd rfl,
    fun hd hr => exec_faults he ((failingCode_macg_of_open hd).trans (if_pos hr)),
    fun hd => exec_macg_of_acc_eq_zero he hd, fun hd hr ha hw => ?adds, fun hd hr hw => ?twice⟩⟩
  case adds =>
    obtain ⟨terms, hrow, hlen⟩ := genRow_held hr
    have hl : terms.length < 255 := genRow_length_lt hrow
    have hread := Memory.read_addScaled (a := s.acc) hw hl
    refine ⟨_, Memory.wf_addScaled hw hl, hread 0, fun k hk => ?_, fun j hj => ?_,
      exec_macg_of_acc_ne_zero he hd (State.rlen_ne_zero hr) hrow ha⟩
    · have hk' : k < terms.length := hlen ▸ hk
      exact ⟨_, genTerm_of_genRow hrow hk', by rw [hread, if_neg k.succ_ne_zero, Memory.added_term _ hk']⟩
    · rw [hread, if_neg (by omega), Memory.added_above _ (by omega)]
      exact BitVec.xor_zero
  case twice =>
    obtain ⟨terms, hrow, -⟩ := genRow_held hr
    exact exec_macg_twice he hd (State.rlen_ne_zero hr) hw hrow

/-! ## ENC (R106) -/

/-- The state that `ENC` leaves, `terms` being the row that `RLEN` selects. -/
def State.encoded (s : State) (terms : List Byte) : State :=
  { s with w := (Memory.divStep terms)^[s.dlen.toNat] s.w, done := true, rsp := some 0x6000 }

/-- `ENC` where its four checks pass, in a block built with any admissible configuration. -/
theorem execWith_enc (hc : cfg.Admissible) (he : s.err = 0) (hd : s.done = false) (hn : s.dlen ≠ 0)
    (hr : degreeHeld s.rlen.toNat) (hfit : s.dlen.toNat + s.rlen.toNat ≤ cfg.nmax)
    (hrow : genRow s.rlen.toNat cfg = some terms) : execWith cfg .enc s = .next (s.encoded terms) := by
  obtain ⟨-, hruns⟩ := execWith_enc_bounds hc he hd hn hr
  obtain ⟨terms', hrow', hexec⟩ := hruns hfit
  obtain rfl := Option.some.inj (hrow.symm.trans hrow')
  exact hexec

theorem exec_enc (he : s.err = 0) (hd : s.done = false) (hn : s.dlen ≠ 0) (hr : degreeHeld s.rlen.toNat)
    (hfit : s.dlen.toNat + s.rlen.toNat ≤ 255) (hrow : genRow s.rlen.toNat = some terms) :
    exec .enc s = .next (s.encoded terms) :=
  (exec_eq_execWith .enc s).trans (execWith_enc Config.stated_admissible he hd hn hr hfit hrow)

/-- Where no result stands, three checks are left. -/
theorem failingCode_enc_of_open (hd : s.done = false) : failingCode .enc s =
    if s.dlen = 0 then some 3 else if s.rlen = 0 then some 2
    else if 255 < s.dlen.toNat + s.rlen.toNat then some 2 else none := by
  rw [failingCode, hd]
  rfl

/-- Settles O44: the four checks in order, then the iterations. -/
theorem encRunsDlenIterations : Obligations.EncRunsDlenIterations := by
  unfold Obligations.EncRunsDlenIterations
  refine ⟨rfl, fun s he => ⟨fun hd => exec_frozen he hd rfl, fun hd hn => ?empty, fun hd hn hr => ?unset,
    fun hd hn hr hlong => ?long, fun hd hn hr hfit => ?runs⟩⟩
  case empty => exact exec_faults he (by rw [failingCode_enc_of_open hd, if_pos hn])
  case unset => exact exec_faults he (by rw [failingCode_enc_of_open hd, if_neg hn, if_pos hr])
  case long => exact exec_faults he (by rw [failingCode_enc_of_open hd, if_neg hn, if_neg hr, if_pos hlong])
  case runs =>
    obtain ⟨terms, hrow, -⟩ := genRow_held hr
    refine ⟨terms, hrow, exec_enc he hd hn hr hfit hrow, fun hzero hw j => ?_⟩
    exact Memory.ZeroFrom.iterate_divStep hw (genRow_length_lt hrow) (fun j _ => hzero j) _ j (Nat.zero_le j)

/-! ## STEP (R105) -/

theorem exec_step (he : s.err = 0) (hd : s.done = false) (hr : s.rlen ≠ 0) (hrow : genRow s.rlen.toNat = some terms) :
    exec .step s = .next { s with w := s.w.divStep terms, rsp := some (s.responseWord 0) } :=
  exec_completes (.inl he) ((failingCode_step_of_open hd).trans (if_neg hr)) (by rw [effect, hrow]; rfl)

/-- Settles O43: the checks, one iteration entry by entry, and as many as `ENC` runs. -/
theorem stepDividesOnce : Obligations.StepDividesOnce := by
  unfold Obligations.StepDividesOnce
  refine ⟨rfl, fun s he => ⟨fun hd => exec_frozen he hd rfl,
    fun hd hr => exec_faults he ((failingCode_step_of_open hd).trans (if_pos hr)),
    fun hd hr hw => ?once, fun hd hn hr hfit => ?iterated⟩⟩
  case once =>
    obtain ⟨terms, hrow, hlen⟩ := genRow_held hr
    have hl : terms.length < 255 := genRow_length_lt hrow
    have hread := Memory.read_divStep hw hl
    have hshift : ∀ j, s.rlen.toNat ≤ j ∨ s.w.read 0 = 0 → (s.w.divStep terms).read j = s.w.read (j + 1) := by
      rintro j (hj | hlead)
      · rw [hread, Memory.added_above _ (by omega), ite_self]
        exact BitVec.xor_zero
      · rw [hread, if_pos hlead]
        exact BitVec.xor_zero
    have htop : s.rlen.toNat ≤ 254 := hr.2.trans (by decide)
    refine ⟨_, Memory.wf_divStep hw hl, fun k hk hlead => ?_, fun j _ => hshift j,
      (hshift 254 (.inl htop)).trans (Memory.read_outside hw (Nat.le_refl 255)), exec_step he hd (State.rlen_ne_zero hr) hrow⟩
    have hk' : k < terms.length := hlen ▸ hk
    exact ⟨_, genTerm_of_genRow hrow hk', by rw [hread, if_neg hlead, Memory.added_term _ hk']⟩
  case iterated =>
    obtain ⟨terms, hrow, -⟩ := genRow_held hr
    obtain ⟨rsp, hu⟩ := execTimes_eq_iterate (s := s) (fun w rsp => exec_step he hd (State.rlen_ne_zero hr) hrow)
      s.dlen.toNat s.w s.rsp
    exact ⟨_, _, exec_enc he hd hn hr hfit hrow, hu, rfl, hd⟩

/-! ## STEP from primitives (R110) -/

theorem exec_ldw_zero (he : s.err = 0) : exec (.ldw 0) s = .next (s.afterAcc (s.w.read 0)) :=
  exec_completes (.inl he) (failingCode_ldw 0 s) rfl

/-- Settles O45: the generator scaled by the lead takes the lead out, which the shift then discards. -/
theorem ldwMacgShlIsStep : Obligations.LdwMacgShlIsStep := by
  unfold Obligations.LdwMacgShlIsStep
  intro s hinv he hd hr
  obtain ⟨terms, hrow, -, hl⟩ := hinv.row Config.stated_admissible hr
  obtain ⟨w, hwf, hread, hmacg⟩ :=
    exec_macg_adds_gfmul (s := s.afterAcc (s.w.read 0)) he hd hr hinv.buffer hrow
  have hshift : w.shift = s.w.divStep terms := by
    refine Memory.ext_of_read (Memory.wf_shift hwf) (Memory.wf_divStep hinv.buffer hl) fun j => ?_
    rw [Memory.read_shift, hread, Memory.read_divStep_eq_gfmul hinv.buffer hl]
    rfl
  refine ⟨_, _, _, _, exec_ldw_zero he, hmacg, exec_shl he hd, exec_step he hd hr hrow, ?_, rfl⟩
  rw [hshift]
  rfl

end Sys2Proof.Machine
end

section
/-! # Proofs about what ENC computes: the remainder, the codeword, the shift register, linearity (43_poly.md R107 to R111) -/

namespace Sys2Proof.Machine

variable {cfg : Config} {s : State} {r : Nat} {data terms : List Byte} {m : Memory}

/-! ## Coefficients

A list of bytes is a polynomial, and an index past its end reads as the coefficient 0; so the operations are stated coefficient
by coefficient, without regard to lengths. -/

theorem getD_zipWith {f : Byte → Byte → Byte} (hf : f 0 0 = 0) {p q : List Byte} (hlen : p.length = q.length) (i : Nat) :
    (List.zipWith f p q).getD i 0 = f (p.getD i 0) (q.getD i 0) := by
  by_cases hi : i < p.length
  · have hz : i < (List.zipWith f p q).length := by rw [List.length_zipWith]; omega
    rw [List.getD_eq_getElem _ _ hz, List.getElem_zipWith, List.getD_eq_getElem _ _ hi, List.getD_eq_getElem _ _ (hlen ▸ hi)]
  · have hz : (List.zipWith f p q).length ≤ i := by rw [List.length_zipWith]; omega
    rw [List.getD_eq_default _ _ hz, List.getD_eq_default _ _ (by omega), List.getD_eq_default _ _ (by omega), hf]

theorem getD_append_split (p q : List Byte) (i : Nat) :
    (p ++ q).getD i 0 = if i < p.length then p.getD i 0 else q.getD (i - p.length) 0 := by
  split
  next h => exact List.getD_append _ _ _ _ h
  next h => exact List.getD_append_right _ _ _ _ (not_lt.1 h)

theorem getD_replicate_zero (n i : Nat) : (List.replicate n (0 : Byte)).getD i 0 = 0 := by
  rw [List.getD_eq_getElem?_getD, List.getElem?_getD_replicate_default_eq]

theorem getD_map_gfmul (a : Byte) (p : List Byte) (i : Nat) : (p.map (gfmul a)).getD i 0 = gfmul a (p.getD i 0) := by
  calc (p.map (gfmul a)).getD i 0
      = (p.map (gfmul a)).getD i (gfmul a 0) := by rw [gfmul_zero]
    _ = gfmul a (p.getD i 0) := List.getD_map p 0 _

theorem getD_xorPrefix (p q : List Byte) (i : Nat) : (xorPrefix p q).getD i 0 = p.getD i 0 ^^^ q.getD i 0 := by
  induction p generalizing q i with
  | nil => exact BitVec.zero_xor.symm
  | cons a p ih =>
    cases q with
    | nil => exact BitVec.xor_zero.symm
    | cons b q =>
      cases i with
      | zero => rfl
      | succ i => exact ih q i

theorem length_xorPrefix {p q : List Byte} (h : p.length ≤ q.length) : (xorPrefix p q).length = q.length := by
  induction p generalizing q with
  | nil => rfl
  | cons a p ih =>
    cases q with
    | nil => cases h
    | cons b q => exact congrArg (· + 1) (ih (Nat.le_of_succ_le_succ h))

theorem length_polyMul (p : List Byte) (b : Byte) (q : List Byte) : (polyMul p (b :: q)).length = p.length + q.length := by
  induction p with
  | nil => simp [polyMul]
  | cons a p ih =>
    have hle : ((b :: q).map (gfmul a)).length ≤ (0 :: polyMul p (b :: q)).length := by simp [ih]
    rw [polyMul, length_xorPrefix hle, List.length_cons, ih, List.length_cons, Nat.add_right_comm]

theorem getD_polyMul_nil (q : List Byte) (i : Nat) : (polyMul [] q).getD i 0 = 0 := getD_replicate_zero _ i

theorem getD_polyMul_cons_zero (a : Byte) (p q : List Byte) : (polyMul (a :: p) q).getD 0 0 = gfmul a (q.getD 0 0) := by
  rw [polyMul, getD_xorPrefix, getD_map_gfmul]
  exact BitVec.xor_zero

theorem getD_polyMul_cons_succ (a : Byte) (p q : List Byte) (i : Nat) :
    (polyMul (a :: p) q).getD (i + 1) 0 = gfmul a (q.getD (i + 1) 0) ^^^ (polyMul p q).getD i 0 := by
  rw [polyMul, getD_xorPrefix, getD_map_gfmul, List.getD_cons_succ]

/-! ## Quotient and remainder are determined (R108) -/

/-- The first coefficients of a multiple of a monic polynomial give the factor, from the leading one on. -/
theorem eq_of_polyMul_monic {coeffs q q' : List Byte} (hlen : q.length = q'.length)
    (h : ∀ i < q.length, (polyMul q (1 :: coeffs)).getD i 0 = (polyMul q' (1 :: coeffs)).getD i 0) : q = q' := by
  induction q generalizing q' with
  | nil => exact (List.length_eq_zero_iff.1 hlen.symm).symm
  | cons a q ih =>
    obtain ⟨a', q', rfl⟩ := List.exists_cons_of_length_eq_add_one hlen.symm
    have hlead : a = a' := by
      have h0 := h 0 (Nat.succ_pos _)
      rwa [getD_polyMul_cons_zero, getD_polyMul_cons_zero, List.getD_cons_zero, gfmul_one, gfmul_one] at h0
    subst hlead
    refine congrArg (a :: ·) (ih (Nat.succ.inj hlen) fun i hi => ?_)
    have hsucc := h (i + 1) (Nat.succ_lt_succ hi)
    rwa [getD_polyMul_cons_succ, getD_polyMul_cons_succ, BitVec.xor_right_inj] at hsucc

/-- Settles O51: both products begin with the data, which gives the quotient; what is left is the remainder. -/
theorem remainderIsUnique : Obligations.RemainderIsUnique := by
  unfold Obligations.RemainderIsUnique
  intro coeffs data q q' R R' hq hq' _ _ h h'
  have hqq : q = q' := by
    refine eq_of_polyMul_monic (coeffs := coeffs) (hq.trans hq'.symm) fun i hi => ?_
    rw [h, h', List.getD_append _ _ _ _ (hq ▸ hi), List.getD_append _ _ _ _ (hq ▸ hi)]
  subst hqq
  exact ⟨rfl, List.append_cancel_left (h.symm.trans h')⟩

/-! ## The division (R107) -/

/-- The leads of `n` iterations of `DivStep`: the quotient of the division, the highest power first. -/
def Memory.quotient (terms : List Byte) : Nat → Memory → List Byte
  | 0, _ => []
  | n + 1, m => m.read 0 :: Memory.quotient terms n (m.divStep terms)

theorem Memory.length_quotient (terms : List Byte) : ∀ (n : Nat) (m : Memory), (m.quotient terms n).length = n
  | 0, _ => rfl
  | n + 1, m => congrArg (· + 1) (Memory.length_quotient terms n (m.divStep terms))

/-- The buffer before `n` iterations of `DivStep` is the quotient times the generator plus the buffer after them. -/
theorem Memory.getD_quotient_mul (hl : terms.length < cfg.nmax) (n : Nat) (hw : m.wf cfg = true) (i : Nat) :
    (polyMul (m.quotient terms n) (1 :: termCoefficients terms)).getD i 0 =
      m.read i ^^^ (if i < n then 0 else ((Memory.divStep terms)^[n] m).read (i - n)) := by
  induction n generalizing m i with
  | zero => exact (getD_polyMul_nil _ i).trans BitVec.xor_self.symm
  | succ n ih =>
    rw [Memory.quotient]
    cases i with
    | zero =>
      rw [getD_polyMul_cons_zero, List.getD_cons_zero, gfmul_one, if_pos n.succ_pos]
      exact BitVec.xor_zero.symm
    | succ i =>
      rw [getD_polyMul_cons_succ, List.getD_cons_succ, ih (Memory.wf_divStep hw hl), Memory.read_divStep_eq_gfmul hw hl,
        ← BitVec.xor_assoc, BitVec.xor_comm (gfmul _ _), xor_xor_cancel_right, Function.iterate_succ_apply]
      simp only [Nat.add_lt_add_iff_right, Nat.add_sub_add_right]

/-! ## A loaded block -/

theorem State.length_result (s : State) (r : Nat) : (s.result r).length = r := by
  rw [State.result, List.length_map, List.length_range]

theorem State.getD_result {j : Nat} (s : State) (hj : j < r) : (s.result r).getD j 0 = s.w.read j := by
  simp [State.result, hj]

theorem State.result_eq_of_getD {l : List Byte} (hlen : l.length = r) (h : ∀ j, s.w.read j = l.getD j 0) : s.result r = l := by
  refine List.ext_getElem (by rw [State.length_result, hlen]) fun j hj hj' => ?_
  rw [← List.getD_eq_getElem _ 0 hj, ← List.getD_eq_getElem _ 0 hj', State.getD_result s (hlen ▸ hj'), h]

namespace State.Loaded

/-- `ENC` from a loaded block that fits, in a block built with any admissible configuration. -/
theorem execWith_enc (hc : cfg.Admissible) (h : s.Loaded r data cfg) (hfit : blockFits r data cfg)
    (hrow : genRow r cfg = some terms) : execWith cfg .enc s = .next (s.encoded terms) := by
  obtain ⟨hr, hpos, hsum⟩ := hfit
  have hn : s.dlen ≠ 0 := by
    intro h0
    have hcount := h.count
    rw [h0] at hcount
    exact absurd (hcount ▸ hpos) (by decide)
  exact Machine.execWith_enc hc h.running h.open_ hn (h.degree ▸ hr) (by rwa [h.count, h.degree]) (h.degree.symm ▸ hrow)

theorem exec_enc (h : s.Loaded r data) (hfit : blockFits r data) (hrow : genRow r = some terms) :
    exec .enc s = .next (s.encoded terms) :=
  (exec_eq_execWith .enc s).trans (h.execWith_enc Config.stated_admissible hfit hrow)

theorem encoded_w (h : s.Loaded r data cfg) (terms : List Byte) :
    (s.encoded terms).w = (Memory.divStep terms)^[data.length] s.w := by
  rw [State.encoded, h.count]

/-- Nothing stands above the result (43_poly.md R107). -/
theorem encoded_zeroFrom (h : s.Loaded r data cfg) (hlen : terms.length = r) (hl : terms.length < cfg.nmax) :
    (s.encoded terms).w.ZeroFrom r := by
  have htail : s.w.ZeroFrom data.length := fun j hj => (h.bytes j).trans (List.getD_eq_default _ _ hj)
  rw [h.encoded_w, ← Memory.divSteps_eq_iterate, ← hlen]
  exact Memory.ZeroFrom.divSteps hl _ _ h.buffer (htail.mono (le_max_left _ _))

/-- The quotient times the generator is the data followed by the result (43_poly.md R107). -/
theorem quotient_mul (h : s.Loaded r data cfg) (hlen : terms.length = r) (hl : terms.length < cfg.nmax) :
    polyMul (s.w.quotient terms data.length) (1 :: termCoefficients terms) = data ++ (s.encoded terms).result r := by
  have hlength : (polyMul (s.w.quotient terms data.length) (1 :: termCoefficients terms)).length = data.length + r := by
    rw [length_polyMul, Memory.length_quotient, termCoefficients, List.length_map, hlen]
  refine List.ext_getElem (by rw [hlength, List.length_append, State.length_result]) fun i hp hq => ?_
  rw [← List.getD_eq_getElem _ 0 hp, ← List.getD_eq_getElem _ 0 hq, Memory.getD_quotient_mul hl _ h.buffer, h.bytes,
    getD_append_split, ← h.encoded_w]
  split
  next => exact BitVec.xor_zero
  next hi =>
    rw [State.getD_result _ (by omega), List.getD_eq_default _ _ (not_lt.1 hi)]
    exact BitVec.zero_xor

end State.Loaded

/-- Settles O50: the quotient is the list of the leads, and `ENC` writes no register but `DONE`. -/
theorem encLeavesTheRemainder : Obligations.EncLeavesTheRemainder := by
  unfold Obligations.EncLeavesTheRemainder
  intro s r data h hfit
  obtain ⟨terms, hrow, hlen⟩ := genRow_held hfit.1
  have hl : terms.length < 255 := genRow_length_lt hrow
  exact ⟨s.encoded terms, terms, s.w.quotient terms data.length, h.exec_enc hfit hrow, hrow, Memory.length_quotient ..,
    h.quotient_mul hlen hl, h.encoded_zeroFrom hlen hl, rfl, rfl, rfl, rfl, h.running, rfl, rfl⟩

/-! ## The value of a product (R108) -/

/-- A product distributes over a sum in the first factor too (42_gf.md R87). -/
theorem xor_gfmul (a b c : Byte) : gfmul (a ^^^ b) c = gfmul a c ^^^ gfmul b c := by
  rw [gfmul_comm, (gfmul_linear c).eq, gfmul_comm c, gfmul_comm c]

/-- Horner's rule at `x`, `v` being the value of the coefficients read so far. -/
def horner (x v : Byte) (p : List Byte) : Byte := p.foldl (fun v c => gfmul v x ^^^ c) v

theorem polyEval_eq_horner (p : List Byte) (x : Byte) : polyEval p x = horner x 0 p := rfl

theorem horner_cons (x v c : Byte) (p : List Byte) : horner x v (c :: p) = horner x (gfmul v x ^^^ c) p := rfl

/-- A summand of the value so far is multiplied by `x` for every coefficient still to come. -/
theorem horner_xor (x u v : Byte) (p : List Byte) : horner x (u ^^^ v) p = (gfmul x)^[p.length] u ^^^ horner x v p := by
  induction p generalizing u v with
  | nil => rfl
  | cons c p ih =>
    rw [horner_cons, xor_gfmul, BitVec.xor_assoc, ih, horner_cons, gfmul_comm u, List.length_cons, Function.iterate_succ_apply]

/-- A sum aligned at the leading coefficients: the shorter summand counts with the powers of `x` it lacks. -/
theorem horner_xorPrefix {p q : List Byte} (h : p.length ≤ q.length) (x u v : Byte) :
    horner x (u ^^^ v) (xorPrefix p q) = (gfmul x)^[q.length - p.length] (horner x u p) ^^^ horner x v q := by
  induction p generalizing q u v with
  | nil => exact horner_xor x u v q
  | cons a p ih =>
    obtain _ | ⟨b, q⟩ := q
    · cases h
    · have hstep : gfmul (u ^^^ v) x ^^^ (a ^^^ b) = (gfmul u x ^^^ a) ^^^ (gfmul v x ^^^ b) := by
        rw [xor_gfmul]; ac_rfl
      rw [xorPrefix, horner_cons, hstep, ih (Nat.le_of_succ_le_succ h), horner_cons, horner_cons, List.length_cons,
        List.length_cons, Nat.add_sub_add_right]

theorem horner_map_gfmul (x a v : Byte) (p : List Byte) :
    horner x (gfmul a v) (p.map (gfmul a)) = gfmul a (horner x v p) := by
  induction p generalizing v with
  | nil => rfl
  | cons c p ih => rw [List.map_cons, horner_cons, ← gfmul_assoc, ← (gfmul_linear a).eq, ih, horner_cons]

theorem polyEval_map_gfmul (x a : Byte) (p : List Byte) : polyEval (p.map (gfmul a)) x = gfmul a (polyEval p x) := by
  have h := horner_map_gfmul x a 0 p
  rwa [gfmul_zero] at h

theorem polyEval_replicate_zero (n : Nat) (x : Byte) : polyEval (List.replicate n 0) x = 0 := by
  have h := polyEval_map_gfmul x 0 (List.replicate n 0)
  rwa [List.map_replicate, gfmul_zero, zero_gfmul] at h

theorem polyEval_cons (a : Byte) (p : List Byte) (x : Byte) :
    polyEval (a :: p) x = (gfmul x)^[p.length] a ^^^ polyEval p x := by
  rw [polyEval_eq_horner, horner_cons, zero_gfmul, BitVec.xor_comm]
  exact horner_xor x a 0 p

/-- Multiplying by powers of `x` commutes with multiplying by `c`. -/
theorem iterate_gfmul_gfmul (x c : Byte) (n : Nat) (a : Byte) : (gfmul x)^[n] (gfmul a c) = gfmul ((gfmul x)^[n] a) c :=
  (Function.Semiconj.iterate_right (f := (gfmul · c)) (fun b => (gfmul_assoc x b c).symm) n a).symm

/-- The value of a product is the product of the values. -/
theorem polyEval_polyMul (p : List Byte) (b : Byte) (q : List Byte) (x : Byte) :
    polyEval (polyMul p (b :: q)) x = gfmul (polyEval p x) (polyEval (b :: q) x) := by
  induction p with
  | nil => exact (polyEval_replicate_zero _ x).trans (zero_gfmul _).symm
  | cons a p ih =>
    have hlen : (0 :: polyMul p (b :: q)).length - ((b :: q).map (gfmul a)).length = p.length := by
      simp [length_polyMul]
    have hle : ((b :: q).map (gfmul a)).length ≤ (0 :: polyMul p (b :: q)).length := by simp [length_polyMul]
    calc polyEval (polyMul (a :: p) (b :: q)) x
        = horner x (0 ^^^ 0) (xorPrefix ((b :: q).map (gfmul a)) (0 :: polyMul p (b :: q))) := rfl
      _ = (gfmul x)^[p.length] (polyEval ((b :: q).map (gfmul a)) x) ^^^ polyEval (0 :: polyMul p (b :: q)) x := by
        rw [horner_xorPrefix hle, hlen]; rfl
      _ = (gfmul x)^[p.length] (gfmul a (polyEval (b :: q) x)) ^^^ polyEval (polyMul p (b :: q)) x := by
        rw [polyEval_map_gfmul, polyEval_eq_horner (0 :: _), horner_cons, zero_gfmul]; rfl
      _ = gfmul ((gfmul x)^[p.length] a ^^^ polyEval p x) (polyEval (b :: q) x) := by
        rw [ih, iterate_gfmul_gfmul, xor_gfmul]
      _ = gfmul (polyEval (a :: p) x) (polyEval (b :: q) x) := by rw [polyEval_cons a]

theorem polyEval_linear (a x : Byte) : polyEval [1, a] x = x ^^^ a := by
  rw [polyEval_cons, List.length_singleton, Function.iterate_one, gfmul_one, polyEval_eq_horner, horner_cons, zero_gfmul]
  exact congrArg (x ^^^ ·) BitVec.zero_xor

/-- The roots of the generator polynomial (20_memory.md R46). -/
theorem polyEval_generatorPoly {i : Nat} (hi : i < r) : polyEval (generatorPoly r) (antilog i) = 0 := by
  induction r with
  | zero => cases hi
  | succ n ih =>
    rw [generatorPoly, polyEval_polyMul, polyEval_linear]
    rcases Nat.lt_succ_iff_lt_or_eq.1 hi with hlt | rfl
    · rw [ih hlt, zero_gfmul]
    · rw [BitVec.xor_self]; exact gfmul_zero _

/-- A multiple of the generator polynomial vanishes at its roots, so the data followed by the result do. -/
theorem State.Loaded.polyEval_codeword (h : s.Loaded r data cfg) (hlen : terms.length = r) (hl : terms.length < cfg.nmax)
    (hrow : genRow r cfg = some terms) (hgen : genHoldsGenerator r cfg) {i : Nat} (hi : i < r) :
    polyEval (data ++ (s.encoded terms).result r) (antilog i) = 0 := by
  obtain ⟨terms', hrow', hpoly⟩ := hgen
  obtain rfl := Option.some.inj (hrow.symm.trans hrow')
  rw [← h.quotient_mul hlen hl, polyEval_polyMul, ← hpoly, polyEval_generatorPoly hi, gfmul_zero]

/-- Settles O52: the codeword is a multiple of the generator polynomial. -/
theorem codewordVanishesAtTheRoots : Obligations.CodewordVanishesAtTheRoots := by
  unfold Obligations.CodewordVanishesAtTheRoots
  intro s r data h hfit hgen
  obtain ⟨terms, hrow, hlen⟩ := genRow_held hfit.1
  exact ⟨_, h.exec_enc hfit hrow, fun i => h.polyEval_codeword hlen (genRow_length_lt hrow) hrow hgen⟩

/-- Settles O60: the division and the roots do not depend on which admissible configuration the block has. -/
theorem encDividesByWhateverGenHolds : Obligations.EncDividesByWhateverGenHolds := by
  unfold Obligations.EncDividesByWhateverGenHolds
  intro cfg s r data hc h hfit
  obtain ⟨terms, hrow, hlen⟩ := hc.row hfit.1
  have hl : terms.length < cfg.nmax := hc.row_length_lt hrow
  exact ⟨s.encoded terms, terms, s.w.quotient terms data.length, h.execWith_enc hc hfit hrow, hrow, hlen,
    Memory.length_quotient .., h.quotient_mul hlen hl, h.encoded_zeroFrom hlen hl, fun hgen i => h.polyEval_codeword hlen hl hrow hgen⟩

/-! ## The feedback shift register (R109) -/

theorem length_lfsrFeed {coeffs reg : List Byte} (hreg : reg.length = coeffs.length) (c : Byte) :
    (lfsrFeed coeffs reg c).length = coeffs.length := by
  rw [lfsrFeed, List.length_zipWith, List.length_append, List.length_tail, List.length_singleton]
  omega

theorem getD_lfsrFeed {coeffs reg : List Byte} (hreg : reg.length = coeffs.length) (c : Byte) (j : Nat) :
    (lfsrFeed coeffs reg c).getD j 0 = reg.getD (j + 1) 0 ^^^ gfmul (reg.getD 0 0 ^^^ c) (coeffs.getD j 0) := by
  cases reg with
  | nil =>
    obtain rfl := List.length_eq_zero_iff.1 hreg.symm
    exact (congrArg ((0 : Byte) ^^^ ·) (gfmul_zero _)).symm
  | cons x reg =>
    have hlen : (reg ++ [0]).length = coeffs.length := by simpa using hreg
    have hzero : (0 : Byte) ^^^ gfmul (x ^^^ c) 0 = 0 := by rw [gfmul_zero]; rfl
    have hnext : (reg ++ [0]).getD j 0 = reg.getD j 0 := by
      rw [getD_append_split]
      split
      next => rfl
      next h => rw [List.getD_eq_default reg 0 (not_lt.1 h)]; exact getD_replicate_zero 1 _
    exact (getD_zipWith hzero hlen j).trans (by rw [hnext]; rfl)

/-- As long as the buffer is the register plus the data still to come, its lead is the feedback; so feeding the data is as many
iterations of `DivStep`. -/
theorem Memory.read_iterate_divStep_eq_lfsr (hl : terms.length < cfg.nmax) {reg : List Byte} (hw : m.wf cfg = true)
    (hreg : reg.length = (termCoefficients terms).length) (h : ∀ j, m.read j = reg.getD j 0 ^^^ data.getD j 0) (j : Nat) :
    ((Memory.divStep terms)^[data.length] m).read j = (data.foldl (lfsrFeed (termCoefficients terms)) reg).getD j 0 := by
  induction data generalizing m reg with
  | nil => exact (h j).trans BitVec.xor_zero
  | cons c data ih =>
    refine ih (Memory.wf_divStep hw hl) (length_lfsrFeed hreg c) fun j => ?_
    rw [Memory.read_divStep_eq_gfmul hw hl, h, h, getD_lfsrFeed hreg, List.getD_cons_succ, List.getD_cons_zero]
    ac_rfl

theorem length_foldl_lfsrFeed {coeffs reg : List Byte} (hreg : reg.length = coeffs.length) (data : List Byte) :
    (data.foldl (lfsrFeed coeffs) reg).length = coeffs.length := by
  induction data generalizing reg with
  | nil => exact hreg
  | cons c data ih => exact ih (length_lfsrFeed hreg c)

/-- Settles O53: at the start the register is zero and the buffer is the data. -/
theorem encIsTheFeedbackShiftRegister : Obligations.EncIsTheFeedbackShiftRegister := by
  unfold Obligations.EncIsTheFeedbackShiftRegister
  intro s r data h hfit
  obtain ⟨terms, hrow, hlen⟩ := genRow_held hfit.1
  have hreg := List.length_replicate (n := (termCoefficients terms).length) (a := (0 : Byte))
  have hstart : ∀ j, s.w.read j = (List.replicate (termCoefficients terms).length 0).getD j 0 ^^^ data.getD j 0 := fun j => by
    rw [h.bytes, getD_replicate_zero]
    exact BitVec.zero_xor.symm
  refine ⟨_, terms, h.exec_enc hfit hrow, hrow, State.result_eq_of_getD ?_ fun j => ?_⟩
  · rw [lfsr, length_foldl_lfsrFeed hreg, termCoefficients, List.length_map, hlen]
  · rw [h.encoded_w]
    exact Memory.read_iterate_divStep_eq_lfsr (genRow_length_lt hrow) h.buffer hreg hstart j

/-! ## Linearity (R111) -/

/-- Iterations of `DivStep` take the sum of two buffers to the sum of what they leave of each. -/
theorem Memory.read_iterate_divStep_xor (hl : terms.length < cfg.nmax) {ma mb : Memory} (hm : m.wf cfg = true)
    (ha : ma.wf cfg = true) (hb : mb.wf cfg = true) (h : ∀ j, m.read j = ma.read j ^^^ mb.read j) (n j : Nat) :
    ((Memory.divStep terms)^[n] m).read j =
      ((Memory.divStep terms)^[n] ma).read j ^^^ ((Memory.divStep terms)^[n] mb).read j := by
  induction n generalizing m ma mb with
  | zero => exact h j
  | succ n ih =>
    refine ih (wf_divStep hm hl) (wf_divStep ha hl) (wf_divStep hb hl) fun j => ?_
    simp only [read_divStep_eq_gfmul hm hl, read_divStep_eq_gfmul ha hl, read_divStep_eq_gfmul hb hl, h, xor_gfmul]
    ac_rfl

/-- Iterations of `DivStep` take a buffer scaled by `c` to what they leave of it, scaled by `c`. -/
theorem Memory.read_iterate_divStep_gfmul (hl : terms.length < cfg.nmax) {c : Byte} {ma : Memory} (hm : m.wf cfg = true)
    (ha : ma.wf cfg = true) (h : ∀ j, m.read j = gfmul c (ma.read j)) (n j : Nat) :
    ((Memory.divStep terms)^[n] m).read j = gfmul c (((Memory.divStep terms)^[n] ma).read j) := by
  induction n generalizing m ma with
  | zero => exact h j
  | succ n ih =>
    refine ih (wf_divStep hm hl) (wf_divStep ha hl) fun j => ?_
    rw [read_divStep_eq_gfmul hm hl, read_divStep_eq_gfmul ha hl, h, h, (gfmul_linear c).eq, gfmul_assoc]

namespace State.Loaded

variable {a b : List Byte} {sa sb : State}

theorem result_xor (hs : s.Loaded r (List.zipWith (· ^^^ ·) a b) cfg) (ha : sa.Loaded r a cfg) (hb : sb.Loaded r b cfg)
    (hab : b.length = a.length) (hl : terms.length < cfg.nmax) : (s.encoded terms).result r =
      List.zipWith (· ^^^ ·) ((sa.encoded terms).result r) ((sb.encoded terms).result r) := by
  have hsum : ∀ j, s.w.read j = sa.w.read j ^^^ sb.w.read j := fun j => by
    rw [hs.bytes, getD_zipWith BitVec.xor_self hab.symm, ha.bytes, hb.bytes]
  rw [State.result, State.result, State.result, List.zipWith_map, List.zipWith_self, hs.encoded_w, ha.encoded_w, hb.encoded_w,
    List.length_zipWith, hab, min_self]
  exact List.map_congr_left fun j _ => Memory.read_iterate_divStep_xor hl hs.buffer ha.buffer hb.buffer hsum _ j

theorem result_map_gfmul {c : Byte} (hs : s.Loaded r (a.map (gfmul c)) cfg) (ha : sa.Loaded r a cfg)
    (hl : terms.length < cfg.nmax) : (s.encoded terms).result r = ((sa.encoded terms).result r).map (gfmul c) := by
  have hscaled : ∀ j, s.w.read j = gfmul c (sa.w.read j) := fun j => by rw [hs.bytes, getD_map_gfmul, ha.bytes]
  rw [State.result, State.result, List.map_map, hs.encoded_w, ha.encoded_w, List.length_map]
  exact List.map_congr_left fun j _ => Memory.read_iterate_divStep_gfmul hl hs.buffer ha.buffer hscaled _ j

/-- The iteration at a leading zero only shifts, which leaves the block without it. -/
theorem result_cons_zero (hs : s.Loaded r (0 :: a) cfg) (ha : sa.Loaded r a cfg) (hl : terms.length < cfg.nmax) :
    (s.encoded terms).result r = (sa.encoded terms).result r := by
  have hshift : s.w.divStep terms = sa.w := by
    refine Memory.ext_of_read (Memory.wf_divStep hs.buffer hl) ha.buffer fun j => ?_
    rw [Memory.read_divStep_eq_gfmul hs.buffer hl, hs.bytes, hs.bytes, ha.bytes, List.getD_cons_zero, zero_gfmul]
    exact BitVec.xor_zero
  rw [State.result, State.result, hs.encoded_w, ha.encoded_w, List.length_cons, Function.iterate_succ_apply, hshift]

/-- All-zero data are the data scaled by 0, and so is their result. -/
theorem result_eq_zero (ha : sa.Loaded r a cfg) (hzero : ∀ x ∈ a, x = 0) (hl : terms.length < cfg.nmax) :
    ∀ y ∈ (sa.encoded terms).result r, y = 0 := by
  have hscaled : a.map (gfmul 0) = a :=
    (List.map_congr_left fun x hx => (zero_gfmul x).trans (hzero x hx).symm).trans (List.map_id a)
  rw [result_map_gfmul (hscaled.symm ▸ ha) ha hl]
  intro y hy
  obtain ⟨x, -, rfl⟩ := List.mem_map.1 hy
  exact zero_gfmul x

end State.Loaded

/-- Settles O54: each clause is its own lemma above. -/
theorem encIsLinearInTheData : Obligations.EncIsLinearInTheData := by
  unfold Obligations.EncIsLinearInTheData
  intro r a sa ha hfit
  obtain ⟨terms, hrow, -⟩ := genRow_held hfit.1
  have hl : terms.length < 255 := genRow_length_lt hrow
  refine ⟨_, ha.exec_enc hfit hrow, fun b sb ssum hab hb hs => ?sum, fun c sc hs => ?scaled,
    fun hzero => ha.result_eq_zero hzero hl, fun sz hs hfitz => ⟨_, hs.exec_enc hfitz hrow, hs.result_cons_zero ha hl⟩⟩
  case sum =>
    have hfitb : blockFits r b := by rwa [blockFits, hab]
    have hfits : blockFits r (List.zipWith (· ^^^ ·) a b) := by rwa [blockFits, List.length_zipWith, hab, min_self]
    exact ⟨_, _, hb.exec_enc hfitb hrow, hs.exec_enc hfits hrow, hs.result_xor ha hb hab hl⟩
  case scaled =>
    have hfitc : blockFits r (a.map (gfmul c)) := by rwa [blockFits, List.length_map]
    exact ⟨_, hs.exec_enc hfitc hrow, hs.result_map_gfmul ha hl⟩

end Sys2Proof.Machine
end

section
/-! # Proofs about exceptions: fault entry, the faulted state and the return from it (60_exceptions.md R122 to R128) -/

namespace Sys2Proof.Machine

variable {cmd : Word16} {i : Instr} {s t : State} {rest : List HostInput}

/-! ## The table of checks (R122) -/

/-- Settles O16: the first failing check gives its code; where none fails the command goes on, and leaves `ERR` 0. -/
theorem checksFollowTheTable : Obligations.ChecksFollowTheTable := by
  unfold Obligations.ChecksFollowTheTable
  refine fun i s he => ⟨fun c hc => exec_faults he hc, fun hc hinv => ?_⟩
  obtain ⟨t, ht⟩ := exists_exec_of_inv hinv i
  exact ⟨t, ht, (exec_err_eq_zero_of_running ht he).2 hc⟩

/-! ## Fault entry (R123) -/

/-- A command that leaves the running block faulted writes `ERR` and its response alone. -/
theorem exec_eq_afterFault (h : exec i s = .next t) (he : s.err = 0) (ht : t.err ≠ 0) : t = s.afterFault t.err := by
  rcases hc : failingCode i s with _ | c
  · exact absurd ((exec_err_eq_zero_of_running h he).2 hc) ht
  · obtain rfl := Host.Outcome.next.inj ((exec_faults he hc).symm.trans h)
    rfl

/-- A command word, legal or illegal, that leaves the running block faulted writes `ERR` and its response alone. -/
theorem step_eq_afterFault (hp : s.pending = .command cmd :: rest) (h : step s = .next t) (he : s.err = 0) (ht : t.err ≠ 0) :
    t = (s.taken rest).afterFault t.err := by
  rcases hd : decode cmd with e | i
  · rw [step_of_decode_error hp hd, illegal_of_running (s := s.taken rest) he] at h
    obtain rfl := Host.Outcome.next.inj h
    rfl
  · rw [step_of_decode_ok hp hd] at h
    exact exec_eq_afterFault h he ht

/-- Bits 10:8 of a response word are `ERR` (10_state.md R17; 30_encoding.md R57). -/
theorem extractLsb'_status_append (t : State) (data : Byte) : (t.status ++ data).extractLsb' 8 3 = t.err :=
  (BitVec.extractLsb'_append_eq_of_le (by decide : 8 ≤ 8)).trans t.status_err

/-- Settles O17: the state after a fault is the old one but for `ERR` and the response. -/
theorem faultChangesErrAlone : Obligations.FaultChangesErrAlone := by
  unfold Obligations.FaultChangesErrAlone
  intro s t cmd rest hp he h ht
  have hrsp : (t.status ++ (0 : Byte)).getLsbD 15 = true := (getLsbD_status_append t 0).trans (decide_eq_true ht)
  have hcode := extractLsb'_status_append t 0
  rw [step_eq_afterFault hp h he ht] at hrsp hcode ⊢
  exact ⟨rfl, rfl, rfl, rfl, rfl, rfl, _, rfl, rfl, hrsp, hcode⟩

/-! ## The faulted state (R124) -/

/-- The word of `CLR` leads to the reset state, whatever the state before it (60_exceptions.md R127). -/
theorem step_clr (hp : s.pending = .command cmd :: rest) (hd : decode cmd = .ok .clr) :
    step s = .next { State.reset with pending := rest, rsp := some 0x0000 } :=
  (step_of_decode_ok hp hd).trans (exec_clr _)

/-- The word of `RDREG` of a register that the block has answers its value, whatever the state. -/
theorem step_rdreg {n v : Byte} (hp : s.pending = .command cmd :: rest) (hd : decode cmd = .ok (.rdreg n))
    (hv : (s.taken rest).readReg n = some v) :
    step s = .next { s with pending := rest, rsp := some (s.status ++ v) } :=
  (step_of_decode_ok hp hd).trans (exec_rdreg_of_readReg hv)

/-- Settles O18: the rejected words, then `NOP`, `CLR` and the four registers. -/
theorem faultedStateRejectsAllButThree : Obligations.FaultedStateRejectsAllButThree := by
  unfold Obligations.FaultedStateRejectsAllButThree
  intro s cmd rest hp he
  refine ⟨fun hrun => ⟨step_rejects hp he hrun, ?faultFlag⟩, step_of_decode_ok hp, step_clr hp, ?acc, ?rlen, ?dlen, ?status⟩
  case faultFlag => exact (getLsbD_status_append s 0).trans (decide_eq_true he)
  case acc | rlen | dlen | status => exact fun hd => step_rdreg hp hd rfl

/-! ## The return from the faulted state (R127, R128) -/

/-- Settles O19: the reset, the `CLR`, then what any other step can do to a nonzero `ERR`. -/
theorem onlyClrOrResetLeavesTheFaultedState : Obligations.OnlyClrOrResetLeavesTheFaultedState := by
  unfold Obligations.OnlyClrOrResetLeavesTheFaultedState
  refine fun s he => ⟨fun rest => step_reset, fun cmd rest => step_clr, fun t h hreset hclr => ?_⟩
  rcases step_err h with heq | ⟨-, ⟨rest, hp⟩ | ⟨cmd, rest, hp, hd⟩⟩ | ⟨hrun, -⟩
  exacts [heq, absurd hp (hreset rest), absurd hd (hclr cmd rest hp), absurd hrun he]

end Sys2Proof.Machine
end

section
/-! # Proofs about reset and calls: the state after CLR, and the call protocol from any state (70_reset_and_hazards.md R141,
R143, R150) -/

namespace Sys2Proof.Machine

variable {i : Instr} {s t : State} {rest : List HostInput}

/-! ## CLR and reset (R141) -/

/-- Settles O26: the word of `CLR` and the reset action lead to the reset state, and what the host gives next stands. -/
theorem clrAndResetReachTheSameState : Obligations.ClrAndResetReachTheSameState := by
  unfold Obligations.ClrAndResetReachTheSameState
  refine fun s rest => ⟨{ State.reset with pending := rest, rsp := some 0x0000 }, { State.reset with pending := rest },
    step_clr rfl rfl, step_reset rfl, rfl, rfl, rfl, rfl, rfl, rfl, rfl, ?status, rfl, Memory.read_nil⟩
  case status => exact State.cleared_status (s.taken rest)

/-! ## A run from its first step, and a run that begins with CLR (R150) -/

theorem run_succ (h : step s = .next t) (n : Nat) : core.run (n + 1) s = core.run n t := by
  have hstep : core.step s = .next t := h
  simp only [Host.Core.run, hstep]

/-- The run goes on with the command that the host gives next. -/
theorem run_command (hp : s.pending = .command (encode i) :: rest) (hi : i.wellFormed = true)
    (h : exec i (s.taken rest) = .next t) (n : Nat) : core.run (n + 1) s = core.run n t :=
  run_succ ((step_of_decode_ok hp (decode_encode hi)).trans h) n

/-- Settles O56: after `CLR` the two runs stand in one state. -/
theorem nothingSurvivesClr : Obligations.NothingSurvivesClr := by
  unfold Obligations.NothingSurvivesClr
  intro s s' rest n hp hp'
  rw [run_succ (step_clr hp rfl), run_succ (step_clr (hp'.trans hp) rfl)]

/-! ## The load of a call (R143) -/

/-- Of a list with one more byte at its end, only the entry at the old length is another. -/
theorem getD_concat (p : List Byte) (b : Byte) (j : Nat) : (p ++ [b]).getD j 0 = if j = p.length then b else p.getD j 0 := by
  rw [getD_append_split]
  rcases lt_trichotomy j p.length with hj | rfl | hj
  · rw [if_pos hj, if_neg hj.ne]
  · rw [if_neg (lt_irrefl _), if_pos rfl, Nat.sub_self]; rfl
  · rw [if_neg hj.not_gt, if_neg hj.ne', List.getD_eq_default _ _ (Nat.sub_pos_of_lt hj), List.getD_eq_default _ _ hj.le]

/-- What the host gives for the data of a call: one `PUSH` for each byte, in order. -/
def pushInputs (data : List Byte) : List HostInput := data.map fun b => .command (encode (.push b))

theorem callInputs_eq (r : Byte) (data : List Byte) : callInputs r data =
    .command (encode .clr) :: .command (encode (.setr r)) :: (pushInputs data ++ [.command (encode .enc)]) := by
  simp [callInputs, callCommands, pushInputs]

/-- After `CLR` and `SETR` the block is loaded with no data yet. -/
theorem exists_exec_setr_loaded {r : Byte} (hr : degreeHeld r.toNat) (pending : List HostInput) (rsp : Option Word16) :
    ∃ t, exec (.setr r) { State.reset with pending := pending, rsp := rsp } = .next t ∧ t.Loaded r.toNat [] ∧
      t.pending = pending :=
  ⟨_, exec_setr_completes rfl rfl hr, ⟨rfl, rfl, setWidth_toNat_of_degreeHeld hr, rfl, rfl, Memory.read_nil⟩, rfl⟩

namespace State.Loaded

variable {r : Nat} {data loaded : List Byte}

theorem taken (h : s.Loaded r data) (rest : List HostInput) : (s.taken rest).Loaded r data :=
  ⟨h.running, h.open_, h.degree, h.count, h.buffer, h.bytes⟩

/-- `PUSH` where the buffer has room loads one byte more. -/
theorem exec_push (h : s.Loaded r data) (hroom : data.length < 255) (b : Byte) :
    ∃ t, exec (.push b) s = .next t ∧ t.Loaded r (data ++ [b]) ∧ t.pending = s.pending := by
  obtain ⟨-, hpush⟩ := pushAppendsAtDlen b s
  obtain ⟨-, -, hpush⟩ := hpush h.running
  obtain ⟨w, hwf, hread, hdlen, hexec⟩ := hpush h.open_ (h.count ▸ hroom) h.buffer
  refine ⟨_, hexec, ⟨h.running, h.open_, h.degree, ?count, hwf, fun j => ?byte⟩, rfl⟩
  case count => rw [hdlen, h.count, List.length_append, List.length_singleton]
  case byte => rw [hread, getD_concat, h.bytes, h.count]

/-- The run goes through the `PUSH`es of the data while the buffer has room, and loads them after what is loaded. -/
theorem run_pushes (h : s.Loaded r loaded) (hroom : loaded.length + data.length ≤ 255)
    (hp : s.pending = pushInputs data ++ rest) (n : Nat) :
    ∃ t, core.run (data.length + n) s = core.run n t ∧ t.Loaded r (loaded ++ data) ∧ t.pending = rest := by
  induction data generalizing s loaded with
  | nil => exact ⟨s, by rw [List.length_nil, Nat.zero_add], by rwa [List.append_nil], hp⟩
  | cons b data ih =>
    rw [List.length_cons] at hroom ⊢
    obtain ⟨u, hexec, hu, hpu⟩ := (h.taken (pushInputs data ++ rest)).exec_push (by omega) b
    obtain ⟨t, hrun, ht, hpt⟩ := ih hu (by rw [List.length_append, List.length_singleton]; omega) hpu
    refine ⟨t, ?_, by rwa [List.append_assoc] at ht, hpt⟩
    rw [Nat.add_right_comm, run_command hp rfl hexec, hrun]

end State.Loaded

/-! ## The result of a call (R143, R107, R79) -/

/-- From any state the commands of a call before `ENC` leave a loaded block. -/
theorem run_call_loads {r : Byte} {data : List Byte} (hr : degreeHeld r.toNat) (hroom : data.length ≤ 255)
    (hp : s.pending = callInputs r data ++ rest) (n : Nat) :
    ∃ t, core.run (data.length + n + 2) s = core.run n t ∧ t.Loaded r.toNat data ∧
      t.pending = .command (encode .enc) :: rest := by
  rw [callInputs_eq, List.cons_append, List.cons_append, List.append_assoc] at hp
  obtain ⟨u, hsetr, hu, hpu⟩ := exists_exec_setr_loaded hr (pushInputs data ++ ([.command (encode .enc)] ++ rest)) (some 0)
  obtain ⟨t, hrun, ht, hpt⟩ := hu.run_pushes (by rwa [List.length_nil, Nat.zero_add]) hpu n
  refine ⟨t, ?_, ht, hpt⟩
  rw [run_command hp rfl (exec_clr _), run_command rfl rfl hsetr, hrun]

/-- `STATUS` of a finished block is `DONE` and `RSET`, whatever the data byte (10_state.md R17). -/
theorem State.responseWord_of_result (he : s.err = 0) (hd : s.done = true) (hr : s.rlen ≠ 0) (data : Byte) :
    s.responseWord data = 0x60#8 ++ data := by
  rw [State.responseWord, State.status, State.faultFlag, State.rsetFlag, he, hd, decide_eq_true hr]
  rfl

/-- `RDRS` of a finished block answers the bytes of the result and changes nothing (41_buffer.md R79). -/
theorem exec_rdrs_result {j : Byte} (he : s.err = 0) (hd : s.done = true) (hj : j.toNat < s.rlen.toNat) :
    exec (.rdrs j) s = .next { s with rsp := some (0x60#8 ++ (s.result s.rlen.toNat).getD j.toNat 0) } := by
  have hr : s.rlen ≠ 0 := fun h0 => Nat.not_lt_zero _ (h0 ▸ hj)
  obtain ⟨-, hrdrs⟩ := rdrsReadsTheResult j s
  obtain ⟨-, -, hread⟩ := hrdrs he
  rw [hread hd hj, State.afterAnswer, State.responseWord_of_result he hd hr, State.getD_result s hj]

/-- Settles O55: `CLR` forgets the state before it, the pushes load the data, `ENC` divides them. -/
theorem callFromAnyStateYieldsTheRemainder : Obligations.CallFromAnyStateYieldsTheRemainder := by
  unfold Obligations.CallFromAnyStateYieldsTheRemainder
  intro s r data rest hfit hp
  have ⟨hr, _, hsum⟩ := hfit
  obtain ⟨u, hrun, hu, hpu⟩ := run_call_loads hr (Nat.le_of_add_right_le hsum) hp 1
  obtain ⟨t, terms, q, henc, hrow, hq, hmul, -, hdone, -, hdlen, hrlen, herr, hpt, hrsp⟩ :=
    encLeavesTheRemainder (u.taken rest) r.toNat data (hu.taken rest) hfit
  have hdeg : t.rlen.toNat = r.toNat := (congrArg BitVec.toNat hrlen).trans hu.degree
  refine ⟨t, terms, q, ?run, hrow, hq, hmul, hpt, herr, hdone, hdeg, ?count, hrsp, fun j hj => ?rdrs⟩
  case run => rw [hrun, run_command hpu rfl henc]; rfl
  case count => exact (congrArg BitVec.toNat hdlen).trans hu.count
  case rdrs => exact hdeg ▸ exec_rdrs_result herr hdone (hdeg ▸ hj)

end Sys2Proof.Machine
end

section
/-! # Proofs about the step and what the host gives next (40_system.md R65; 70_reset_and_hazards.md R140; log entries 1 to 3) -/

namespace Sys2Proof.Machine

variable {i : Instr}

theorem State.withFetchWord_pending (s : State) (nbits : Nat) (cmd : Word16) :
    (s.withFetchWord nbits cmd.toNat).pending = .command cmd :: s.pending := by
  rw [State.withFetchWord, BitVec.ofNat_toNat, BitVec.setWidth_eq]

/-- Taking the word given leaves the state as it was before the word was given. -/
theorem State.withFetchWord_taken (s : State) (nbits w : Nat) : (s.withFetchWord nbits w).taken s.pending = s := rfl

/-- The word of a well-formed command, given next, is taken and executed in the state it was given to. -/
theorem step_withFetchWord_encode (hwf : i.wellFormed = true) (s : State) (nbits : Nat) :
    step (s.withFetchWord nbits (encode i).toNat) = exec i s := by
  rw [step_of_decode_ok (s.withFetchWord_pending nbits (encode i)) (decode_encode hwf), State.withFetchWord_taken]

/-- Settles O7: the step at each of the three things the host can give, and at the word of a command. -/
theorem stepRunsTheDecodedCommand : Obligations.StepRunsTheDecodedCommand := by
  unfold Obligations.StepRunsTheDecodedCommand
  refine ⟨fun s cmd rest i hp hd => ?command, fun s rest hp => ?reset, fun s hp => ?waits, fun s i nbits hwf => ?fetched⟩
  case command => exact step_of_decode_ok hp hd
  case reset => exact step_reset hp
  case waits => exact step_waits hp
  case fetched => exact step_withFetchWord_encode hwf s nbits

end Sys2Proof.Machine
end
